-- ==== Sys2Proof/Word.lean ====
section
/-! DEFINITION. The word types of GQR-CORE: the 32-bit word of the register port (R25), the 8-bit
codeword and payload byte (R9, R38), and the bit sequence, first bit first (R9). -/
namespace Sys2Proof

/-- A register-port word (R25, R63). -/
abbrev Word := BitVec 32

/-- A codeword: a value in 0..255 (R9); also a GF(256) element (R160). -/
abbrev Codeword := BitVec 8

/-- One byte of the payload memory (R38). -/
abbrev Byte := BitVec 8

/-- A bit sequence, first bit first: `b[0]` is the first bit appended and the first bit of the output
stream (R9). -/
abbrev Bits := List Bool

end Sys2Proof
end

