-- ==== Sys2Proof/Syntax.lean ====
section
/-! DEFINITION. The commands of GQR-CORE: one constructor per row of the opcode map (R84). -/
namespace Sys2Proof

/-- The fifteen commands and the reserved opcode (R84), with the operands of R82. -/
inductive Instr where
  /-- 0x0, format Z (R196) -/
  | nop
  /-- 0x1, format D (R106) -/
  | bbclr (d : BitVec 2)
  /-- 0x2, format DV (R107): width `w` in 0..16 (see `Instr.wf`) -/
  | bbappv (d : BitVec 2) (w : BitVec 5) (imm : BitVec 16)
  /-- 0x3, format DS (R108) -/
  | bbcat (d s : BitVec 2)
  /-- 0x4, format S (R109) -/
  | bbtocw (s : BitVec 2)
  /-- 0x5, format Z (R122) -/
  | lookup
  /-- 0x6, format D (R138) -/
  | numenc (d : BitVec 2)
  /-- 0x7, format D (R154) -/
  | pad (d : BitVec 2)
  /-- 0x8, format Z (R173) -/
  | rsclr
  /-- 0x9, format I8 (R174) -/
  | rsstep (c : Codeword)
  /-- 0xA, format Z (R175) -/
  | rsgen
  /-- 0xB, format D (R110) -/
  | bbappcw (d : BitVec 2)
  /-- 0xC, format Z (R194) -/
  | encode
  /-- 0xD, format Z (R197) -/
  | clrerr
  /-- 0xE, reserved: every such word is an illegal command (R86); `low` is W[27:0]. A row of the table, not
  one of the fifteen commands (log 15). -/
  | reservedE (low : BitVec 28)
  /-- 0xF, format Z (R198) -/
  | reset
  deriving DecidableEq, Repr

end Sys2Proof
end

