-- ==== Sys2Proof/WellFormed.lean ====
section
/-! DEFINITION. The check on a command's operands that its constructor's types do not make: the width of
`BBAPPV` (R82, R85). -/
namespace Sys2Proof

/-- R82: "Legal `w` is 0..16". Every other operand is legal at every value its field holds. -/
def Instr.wf : Instr → Bool
  | .bbappv _ w _ => decide (w.toNat ≤ 16)
  | .nop | .bbclr _ | .bbcat _ _ | .bbtocw _ | .lookup | .numenc _ | .pad _ | .rsclr | .rsstep _ | .rsgen
  | .bbappcw _ | .encode | .clrerr | .reservedE _ | .reset => true

/-- One of the fifteen commands of R84, as against the reserved opcode (R86). -/
def Instr.isCommand : Instr → Bool
  | .reservedE _ => false
  | .bbappv _ _ _ | .nop | .bbclr _ | .bbcat _ _ | .bbtocw _ | .lookup | .numenc _ | .pad _ | .rsclr
  | .rsstep _ | .rsgen | .bbappcw _ | .encode | .clrerr | .reset => true

end Sys2Proof
end

