-- ==== Sys2Proof/Decode.lean ====
section
/-! DEFINITION. Decoding a command word (R80 to R87), the encoder, and the opcode map itself (R84). A command
is one 32-bit word moved whole over the register port, so no byte order enters (R62, R87). -/
namespace Sys2Proof

/-! ### The fields of a command word (R80, R82) -/

/-- `OP = W[31:28]`. -/
def opOf (w : Word) : BitVec 4 := w.extractLsb' 28 4
/-- `D = W[27:26]`. -/
def dOf (w : Word) : BitVec 2 := w.extractLsb' 26 2
/-- `S = W[25:24]`. -/
def sOf (w : Word) : BitVec 2 := w.extractLsb' 24 2
/-- `Z = W[23:21]`. -/
def zOf (w : Word) : BitVec 3 := w.extractLsb' 21 3
/-- `WIDTH = W[20:16]`. -/
def widthOf (w : Word) : BitVec 5 := w.extractLsb' 16 5
/-- `IMM = W[15:0]`. -/
def immOf (w : Word) : BitVec 16 := w.extractLsb' 0 16

/-- Why a word is no command (R85). -/
inductive Illegal where
  /-- a field its format says must be zero is not zero -/
  | mustBeZero (op : BitVec 4)
  /-- `BBAPPV` with `WIDTH` in 17..31 -/
  | widthOutOfRange (w : BitVec 5)
  deriving DecidableEq, Repr

/-- Answers `i` where the word's must-be-zero bits are zero, and rejects the word by name otherwise (R85). -/
def needZero (op : BitVec 4) (zero : Bool) (i : Instr) : Except Illegal Instr :=
  if zero then .ok i else .error (.mustBeZero op)

/-- Format Z: bits 27:0 are zero (R81). -/
def formatZ (w : Word) : Bool := w.extractLsb' 0 28 == 0
/-- Format D: `S` and bits 23:0 are zero (R81). -/
def formatD (w : Word) : Bool := w.extractLsb' 0 26 == 0
/-- Format S: `D` and bits 23:0 are zero (R81). -/
def formatS (w : Word) : Bool := dOf w == 0 && w.extractLsb' 0 24 == 0
/-- Format DS: bits 23:0 are zero (R81). -/
def formatDS (w : Word) : Bool := w.extractLsb' 0 24 == 0
/-- Format DV: `S` and `Z` are zero (R81). -/
def formatDV (w : Word) : Bool := sOf w == 0 && zOf w == 0
/-- Format I8: `D`, `S` and bits 23:8 are zero (R81). -/
def formatI8 (w : Word) : Bool := w.extractLsb' 8 20 == 0

/-- The command a word encodes, or the reason it is illegal (R84, R85). Total: every word is one row of R84
or illegal. The reserved opcode decodes to `reservedE`, whose meaning raises `IllegalCommand` (log 15). -/
def decode (w : Word) : Except Illegal Instr :=
  match (opOf w).toNat with
  | 0 => needZero (opOf w) (formatZ w) .nop
  | 1 => needZero (opOf w) (formatD w) (.bbclr (dOf w))
  | 2 =>
    if formatDV w then
      if (widthOf w).toNat ≤ 16 then .ok (.bbappv (dOf w) (widthOf w) (immOf w))
      else .error (.widthOutOfRange (widthOf w))
    else .error (.mustBeZero (opOf w))
  | 3 => needZero (opOf w) (formatDS w) (.bbcat (dOf w) (sOf w))
  | 4 => needZero (opOf w) (formatS w) (.bbtocw (sOf w))
  | 5 => needZero (opOf w) (formatZ w) .lookup
  | 6 => needZero (opOf w) (formatD w) (.numenc (dOf w))
  | 7 => needZero (opOf w) (formatD w) (.pad (dOf w))
  | 8 => needZero (opOf w) (formatZ w) .rsclr
  | 9 => needZero (opOf w) (formatI8 w) (.rsstep (w.extractLsb' 0 8))
  | 10 => needZero (opOf w) (formatZ w) .rsgen
  | 11 => needZero (opOf w) (formatD w) (.bbappcw (dOf w))
  | 12 => needZero (opOf w) (formatZ w) .encode
  | 13 => needZero (opOf w) (formatZ w) .clrerr
  | 14 => .ok (.reservedE (w.extractLsb' 0 28))
  | _ => needZero (opOf w) (formatZ w) .reset

/-! ### The encoder -/

/-- A field of a word: the bits `x` with bit 0 at position `lo` (R9, R80). -/
def field {n : Nat} (x : BitVec n) (lo : Nat) : Word := x.setWidth 32 <<< lo

/-- Format Z (R81). -/
def packZ (op : BitVec 4) : Word := field op 28
/-- Format D (R81). -/
def packD (op : BitVec 4) (d : BitVec 2) : Word := field op 28 ||| field d 26
/-- Format S (R81). -/
def packS (op : BitVec 4) (s : BitVec 2) : Word := field op 28 ||| field s 24
/-- Format DS (R81). -/
def packDS (op : BitVec 4) (d s : BitVec 2) : Word := field op 28 ||| field d 26 ||| field s 24
/-- Format DV (R81). -/
def packDV (op : BitVec 4) (d : BitVec 2) (w : BitVec 5) (imm : BitVec 16) : Word :=
  field op 28 ||| field d 26 ||| field w 16 ||| field imm 0
/-- Format I8 (R81). -/
def packI8 (op : BitVec 4) (c : Codeword) : Word := field op 28 ||| field c 0

/-- The word of a command (R81, R84). -/
def encode : Instr → Word
  | .nop => packZ 0x0
  | .bbclr d => packD 0x1 d
  | .bbappv d w imm => packDV 0x2 d w imm
  | .bbcat d s => packDS 0x3 d s
  | .bbtocw s => packS 0x4 s
  | .lookup => packZ 0x5
  | .numenc d => packD 0x6 d
  | .pad d => packD 0x7 d
  | .rsclr => packZ 0x8
  | .rsstep c => packI8 0x9 c
  | .rsgen => packZ 0xA
  | .bbappcw d => packD 0xB d
  | .encode => packZ 0xC
  | .clrerr => packZ 0xD
  | .reservedE low => field (0xE : BitVec 4) 28 ||| field low 0
  | .reset => packZ 0xF

/-! ### The opcode map as printed (R84) -/

/-- One row of R84: a word `W` encodes it when `W AND mask = pattern`. -/
structure OpcodeRow where
  mnemonic : String
  pattern : Word
  mask : Word
  deriving DecidableEq, Repr

/-- The row of R84 a command belongs to, its `match` and `mask` columns as printed. -/
def Instr.row : Instr → OpcodeRow
  | .nop => ⟨"NOP", 0x00000000, 0xFFFFFFFF⟩
  | .bbclr _ => ⟨"BBCLR", 0x10000000, 0xF3FFFFFF⟩
  | .bbappv _ _ _ => ⟨"BBAPPV", 0x20000000, 0xF3E00000⟩
  | .bbcat _ _ => ⟨"BBCAT", 0x30000000, 0xF0FFFFFF⟩
  | .bbtocw _ => ⟨"BBTOCW", 0x40000000, 0xFCFFFFFF⟩
  | .lookup => ⟨"LOOKUP", 0x50000000, 0xFFFFFFFF⟩
  | .numenc _ => ⟨"NUMENC", 0x60000000, 0xF3FFFFFF⟩
  | .pad _ => ⟨"PAD", 0x70000000, 0xF3FFFFFF⟩
  | .rsclr => ⟨"RSCLR", 0x80000000, 0xFFFFFFFF⟩
  | .rsstep _ => ⟨"RSSTEP", 0x90000000, 0xFFFFFF00⟩
  | .rsgen => ⟨"RSGEN", 0xA0000000, 0xFFFFFFFF⟩
  | .bbappcw _ => ⟨"BBAPPCW", 0xB0000000, 0xF3FFFFFF⟩
  | .encode => ⟨"ENCODE", 0xC0000000, 0xFFFFFFFF⟩
  | .clrerr => ⟨"CLRERR", 0xD0000000, 0xFFFFFFFF⟩
  | .reservedE _ => ⟨"RESERVED_E", 0xE0000000, 0xF0000000⟩
  | .reset => ⟨"RESET", 0xF0000000, 0xFFFFFFFF⟩

/-- All rows of R84, in the table's order. -/
def opcodeRows : List OpcodeRow :=
  [Instr.nop, .bbclr 0, .bbappv 0 0 0, .bbcat 0 0, .bbtocw 0, .lookup, .numenc 0, .pad 0, .rsclr,
   .rsstep 0, .rsgen, .bbappcw 0, .encode, .clrerr, .reservedE 0, .reset].map Instr.row

/-- `W AND mask = match` (R84). -/
def OpcodeRow.accepts (r : OpcodeRow) (w : Word) : Bool := w &&& r.mask == r.pattern

/-! ### The host's question about the table -/

/-- The instruction the decoder reads from a command whose bits are `w`, numbered as the opcode table numbers
them; bits at `nbits` and above are 0. Every command is one 32-bit word (R87). -/
def decodeTableWord (nbits w : Nat) : Option Instr :=
  match decode (BitVec.ofNat 32 (w % 2 ^ nbits)) with
  | .ok i => some i
  | .error _ => none

end Sys2Proof
end

