-- ==== Sys2Proof/Config.lean ====
section
/-! DEFINITION. What an implementation fixes (R6: the parameters, R7: the capacity table), as plain data,
and the one family of free values (R40: payload bytes nothing has written). -/
namespace Sys2Proof

/-- A capacity entry (R120), each field as wide as the register image the host reads it through (R25). -/
structure CapEntry where
  /-- side of the module grid, 0..255; no rule of the core reads it -/
  dim : BitVec 8
  /-- number of mode-indicator bits, 0..8 -/
  miWidth : BitVec 4
  /-- the mode indicator is `bits(miBits, miWidth)` -/
  miBits : BitVec 8
  /-- width of the character-count indicator, 0..16 -/
  ccw : BitVec 5
  /-- data capacity in bits, 0..65535 -/
  dcb : BitVec 16
  /-- number of ECC codewords, 0..255 -/
  ecc : BitVec 8
  /-- most zero bits of terminator, 0..15 -/
  padTerm : BitVec 4
  /-- alignment unit of the padder in bits, 1..16 -/
  padAlign : BitVec 5
  /-- length of the pad pattern in bits, 1..16 -/
  patLen : BitVec 5
  /-- the pad pattern is `bits(patBits, patLen)`, repeated -/
  patBits : BitVec 16
  deriving DecidableEq, Repr

/-- The entry whose every field is 0: what `CAPR` holds after reset (R40). -/
def CapEntry.zero : CapEntry :=
  { dim := 0, miWidth := 0, miBits := 0, ccw := 0, dcb := 0, ecc := 0,
    padTerm := 0, padAlign := 0, patLen := 0, patBits := 0 }

/-- One registered pair of the capacity table with its entry (R7). -/
structure CapRow where
  /-- symbol-version key, `VKEY_W` bits -/
  key : BitVec 16
  /-- encoding-mode tag -/
  mode : BitVec 2
  entry : CapEntry
  deriving DecidableEq, Repr

/-- The parameters of R6 that are not fixed, and the capacity table of R7. `State.cfg` carries them, no step
writes them. DESIGN CHOICE (log 1): data in the state, since `exec` takes no other argument; safe for
statements over every `cfg`. -/
structure Config where
  /-- `VKEY_W`, 1..16 -/
  vkeyW : Nat
  /-- `BBCAP`, 1..65535; `none` is "unbounded" -/
  bbcap : Option Nat
  /-- `PAY_AW`, 1..16 -/
  payAw : Nat
  /-- `CAP` -/
  cap : List CapRow
  deriving DecidableEq, Repr

/-- The free value of a payload byte nothing has written since hardware reset number `epoch`, at address
`addr` (R40, I7: "any value", never a constant). No body: no proof can see it. It is a function of the
address, so two reads with no write between them agree (R66). DESIGN CHOICE (log 4), safe. -/
opaque Config.freePayload : Nat → Nat → Byte

end Sys2Proof
end

