-- ==== Sys2Proof/Machine/CapTable.lean ====
section
/-! DEFINITION. The capacity table: lookup (R121), well-formedness (R7, R120), the parameters' ranges (R6), the
reference table `REFCFG` (R8) and the test table `TESTCFG` (95_test_vectors.md). -/
namespace Sys2Proof.Machine

/-- A table's rows searched in order for a pair; a well-formed table has one row per pair (log 16). -/
def lookupRows : List CapRow → BitVec 16 → BitVec 2 → Option CapEntry
  | [], _, _ => none
  | r :: rs, v, m => if r.key = v ∧ r.mode = m then some r.entry else lookupRows rs v m

/-- `CAP(v, m)`: the entry, or `none` when the pair is not registered (R121). -/
def lookup (cfg : Config) (v : BitVec 16) (m : BitVec 2) : Option CapEntry := lookupRows cfg.cap v m

/-- The field ranges of R120 that the fields' widths do not already give. -/
def entryWf (e : CapEntry) : Bool :=
  decide (e.miWidth.toNat ≤ 8) && decide (e.miBits.toNat < 2 ^ e.miWidth.toNat) && decide (e.ccw.toNat ≤ 16)
    && decide (1 ≤ e.padAlign.toNat) && decide (e.padAlign.toNat ≤ 16)
    && decide (1 ≤ e.patLen.toNat) && decide (e.patLen.toNat ≤ 16)
    && decide (e.patBits.toNat < 2 ^ e.patLen.toNat)

/-- No pair of the table is registered twice: `CAP` is a partial function (R7). -/
def pairsDistinct : List CapRow → Bool
  | [] => true
  | r :: rs => rs.all (fun q => !(decide (q.key = r.key) && decide (q.mode = r.mode))) && pairsDistinct rs

/-- A well-formed table (R7): every entry in range, every key in `VKEY_W` bits, no pair twice. -/
def tableWf (vkeyW : Nat) (t : List CapRow) : Bool :=
  t.all (fun r => entryWf r.entry && decide (r.key.toNat < 2 ^ vkeyW)) && pairsDistinct t

/-- The ranges of R6 and the well-formedness of R7. -/
def configWf (cfg : Config) : Bool :=
  decide (1 ≤ cfg.vkeyW) && decide (cfg.vkeyW ≤ 16)
    && (match cfg.bbcap with
        | none => true
        | some c => decide (1 ≤ c) && decide (c ≤ 65535))
    && decide (1 ≤ cfg.payAw) && decide (cfg.payAw ≤ 16)
    && tableWf cfg.vkeyW cfg.cap

/-- `n > BBCAP`: a bit buffer of `n` bits does not fit (R6, R219); never so when `BBCAP` is unbounded. -/
def overCap (cfg : Config) (n : Nat) : Bool :=
  match cfg.bbcap with
  | none => false
  | some c => decide (c < n)

/-- An entry with the zero-fill policy of R120: `padTerm = 0`, `padAlign = 1`, `patLen = 1`, `patBits = 0`. -/
def zeroFillEntry (dim : BitVec 8) (miWidth : BitVec 4) (miBits : BitVec 8) (ccw : BitVec 5) (dcb : BitVec 16)
    (ecc : BitVec 8) : CapEntry :=
  { dim := dim, miWidth := miWidth, miBits := miBits, ccw := ccw, dcb := dcb, ecc := ecc,
    padTerm := 0, padAlign := 1, patLen := 1, patBits := 0 }

/-- `REFCFG` (R8). UNVERIFIED (log 10): its numbers are the spec's general knowledge (G3), unsafe for a claim
about a block with another table. -/
def refCap : List CapRow :=
  [ { key := 1, mode := 0, entry := zeroFillEntry 11 0 0 3 20 2 },
    { key := 2, mode := 0, entry := zeroFillEntry 13 1 0 4 40 5 } ]

/-- `TESTCFG`, the table of 95_test_vectors.md; its keys 1 and 2 in Numeric mode are `REFCFG`. -/
def testCap : List CapRow :=
  refCap ++
  [ { key := 2, mode := 1, entry := zeroFillEntry 13 1 1 3 40 5 },
    { key := 3, mode := 0, entry :=
      { dim := 0, miWidth := 2, miBits := 1, ccw := 4, dcb := 48, ecc := 3,
        padTerm := 4, padAlign := 8, patLen := 16, patBits := 0xEC11 } },
    { key := 4, mode := 0, entry := zeroFillEntry 0 0 0 3 19 2 },
    { key := 5, mode := 0, entry := zeroFillEntry 0 0 0 3 8 0 } ]

/-- The reference values of R6 with a given table: `VKEY_W = 4`, `BBCAP = 32768`, `PAY_AW = 13`. -/
def configWith (cap : List CapRow) : Config := { vkeyW := 4, bbcap := some 32768, payAw := 13, cap := cap }

/-- The reference parameters (R6, R8). -/
def referenceConfig : Config := configWith refCap

/-- The parameters the test vectors assume (95_test_vectors.md). -/
def testConfig : Config := configWith testCap

end Sys2Proof.Machine
end

