-- ==== Sys2Proof/Machine/State.lean ====
section
/-! DEFINITION. The state of GQR-CORE (R20) as plain data, the host's accesses, the reasons to stop, and the
state after hardware reset (R40). -/
namespace Sys2Proof.Machine

/-- The four bit buffers `BB[0..3]` (R21). -/
structure Bufs where
  b0 : Bits
  b1 : Bits
  b2 : Bits
  b3 : Bits
  deriving DecidableEq, Repr

/-- The error kinds of R211 (their codes: `errCode` in Ops). -/
inductive ErrKind where
  | unsupportedVersionOrMode
  | invalidDigit
  | characterCountOverflow
  | dataCapacityExceeded
  | unsupportedMode
  /-- the document's §4.3 failure; nothing reachable raises it (R134, R217) -/
  | internalInvariant
  | illegalCommand
  | bufferOverflow
  | notConfigured
  deriving DecidableEq, Repr

/-- One thing the host does to the block: an access to one of the two ports with its width in bits (R38, R63),
or the hardware-reset input (R240). -/
inductive Access where
  /-- `rd REG` at a byte offset -/
  | regRead (width off : Nat)
  /-- `wr REG, value` at a byte offset; at offset 0 it runs a command (R26) -/
  | regWrite (width off : Nat) (value : Word)
  /-- `rdb a` -/
  | payRead (width addr : Nat)
  /-- `wrb a, value` -/
  | payWrite (width addr : Nat) (value : Byte)
  /-- the hardware-reset input (R240) -/
  | hardReset
  deriving DecidableEq, Repr

/-- The data a read access hands the host. -/
inductive Reply where
  | word (v : Word)
  | byte (v : Byte)
  deriving DecidableEq, Repr

/-- The state of one instance of the block (R20), and below it the model's own fields: the parameters, the
count of hardware resets, the host's pending accesses and the last data read. -/
structure State where
  /-- `BB[0..3]` (R21) -/
  bb : Bufs
  /-- the valid codewords `CW[0..CWN-1]`; `CWN` is the length (R35). DEDUCED (log 6), safe: entries at `CWN`
  and above are not observable and no rule reads them. -/
  cw : List Codeword
  /-- the remainder registers in use `REM[0..REMN-1]`, highest power first; `REMN` is the length (R36).
  DEDUCED (log 6), safe, as for `cw`. -/
  rem : List Codeword
  /-- `CAPR` (R33) -/
  capr : CapEntry
  /-- `CAPVALID` (R24) -/
  capvalid : Bool
  /-- `VERSION` (R30), bits above `VKEY_W` zero -/
  version : BitVec 16
  /-- `MODE` (R31): 0 Numeric, 1 Alphanumeric, 2 Byte, 3 Kanji -/
  mode : BitVec 2
  /-- `PLEN` (R32), bits above `PAY_AW` zero -/
  plen : BitVec 16
  /-- `ERRCODE` (R28) -/
  errcode : BitVec 4
  /-- `ERRINFO` (R29) -/
  errinfo : BitVec 16
  /-- `BBPTR` (R34): [17:16] buffer index, [15:0] bit index -/
  bbptr : BitVec 18
  /-- `CWPTR` (R35) -/
  cwptr : BitVec 16
  /-- `REMPTR` (R36) -/
  remptr : BitVec 8
  /-- `PAY` (R38): the bytes written since hardware reset, addresses strictly rising (log 5) -/
  pay : List Host.Cell
  /-- the model's own: how many hardware resets there have been; picks the free payload values (log 4) -/
  payEpoch : Nat
  /-- the model's own: the parameters of R6 and R7, written by no step (log 1) -/
  cfg : Config
  /-- the model's own: the host's accesses still to be made, first one first (R13, R248, log 2) -/
  host : List Access
  /-- the model's own: the data of the most recent read access (log 3) -/
  reply : Option Reply
  deriving DecidableEq, Repr

/-- Why the machine stops at an address the spec says does not exist. -/
inductive Fault where
  /-- raised by a register access at an aligned offset above 0x1FFC, outside the register space of R38.
  DEDUCED (log 8); safe: the spec gives such an access no effect. -/
  | outsideRegisterSpace (off : Nat)
  deriving DecidableEq, Repr

/-- Why a step has no meaning. -/
inductive Refusal where
  /-- raised by an arm of `exec` whose instruction has no meaning yet; no arm does. Safe. -/
  | notModelled (mnemonic : String)
  /-- raised by an access of a width its port does not have (R63: refused). Safe. -/
  | accessWidth (width : Nat)
  /-- raised by a register access at an offset that is not a multiple of 4 (R63: refused). Safe. -/
  | unalignedOffset (off : Nat)
  /-- raised by a payload access at an address of `2^PAY_AW` or above (R63: refused). Safe. -/
  | payloadAddress (addr : Nat)
  /-- raised by a step with no host access pending: the core "has no step that is not caused by a host access"
  (R13), the run has ended (R248). Safe. -/
  | noAccess
  deriving DecidableEq, Repr

/-- The state after hardware reset of a block built with parameters `cfg` (R40, R241). The spec gives every
register's value; the payload is unspecified, so no byte is listed. The model's own fields: no reset counted, no
access pending, no data read. DESIGN CHOICE (logs 2, 3, 4), safe. -/
def State.resetWith (cfg : Config) : State :=
  { bb := { b0 := [], b1 := [], b2 := [], b3 := [] }, cw := [], rem := [],
    capr := CapEntry.zero, capvalid := false, version := 0, mode := 0, plen := 0,
    errcode := 0, errinfo := 0, bbptr := 0, cwptr := 0, remptr := 0,
    pay := [], payEpoch := 0, cfg := cfg, host := [], reply := none }

/-- The machine right after hardware reset (R40), with the reference parameters (R6, R8). DESIGN CHOICE
(log 1): the spec lets a model take any parameters; unsafe for a claim about this state's `cfg` alone. -/
def State.reset : State := State.resetWith referenceConfig

end Sys2Proof.Machine
end

