-- ==== Sys2Proof/Machine/Operands.lean ====
section
/-! DEFINITION. Bit sequences and values (R9), the bit buffer's pure functions (R100 to R104), and the operand
forms of commands: bit buffer by 2-bit index (R82), fields of the read pointers (R34). -/
namespace Sys2Proof.Machine

/-! ### Values and bit sequences (R9, R60) -/

/-- `bits(v, w)`: element `i` is `v[w-1-i]`, the low `w` bits of `v`, most significant first. -/
def bits (v w : Nat) : Bits := (List.range w).map (fun i => v.testBit (w - 1 - i))

/-- `val(b)`: the integer a bit sequence spells, most significant bit first; the inverse of `bits`. -/
def val : Bits → Nat
  | [] => 0
  | b :: bs => (if b then 2 ^ bs.length else 0) + val bs

/-- `0^k`: `k` zero bits. -/
def zeroBits (k : Nat) : Bits := List.replicate k false

/-- `append_value(b, v, w) = b ++ bits(v, w)` (R101): truncates silently (R105). -/
def appendValue (b : Bits) (v w : Nat) : Bits := b ++ bits v w

/-- `append_buffer(b, c) = b ++ c` (R102). -/
def appendBuffer (b c : Bits) : Bits := b ++ c

/-- `ceil(n/8)`. -/
def ceilDiv8 (n : Nat) : Nat := (n + 7) / 8

/-- Group `j` of eight bits of `b`; the last group may be shorter. -/
def octet (b : Bits) (j : Nat) : Bits := (b.drop (8 * j)).take 8

/-- `to_codewords(b)` (R104, R61): codeword `j` is the value of group `j`; a last group of `r` bits is read as
an `r`-bit number, zeros at the most significant end. UNVERIFIED (log 14: the spec's decision D14), unsafe
where `len(b)` is not a multiple of 8. -/
def toCodewords (b : Bits) : List Codeword :=
  (List.range (ceilDiv8 b.length)).map (fun j => BitVec.ofNat 8 (val (octet b j)))

/-- Codewords appended to a buffer, each most significant bit first (R110). -/
def appendCodewords (b : Bits) : List Codeword → Bits
  | [] => b
  | c :: cs => appendCodewords (appendValue b c.toNat 8) cs

/-! ### Bit-buffer operands (R82) -/

/-- `BB[d]`. -/
def Bufs.get (b : Bufs) (d : BitVec 2) : Bits :=
  match d.toNat with
  | 0 => b.b0
  | 1 => b.b1
  | 2 => b.b2
  | _ => b.b3

/-- `BB[d] <- x`. -/
def Bufs.set (b : Bufs) (d : BitVec 2) (x : Bits) : Bufs :=
  match d.toNat with
  | 0 => { b with b0 := x }
  | 1 => { b with b1 := x }
  | 2 => { b with b2 := x }
  | _ => { b with b3 := x }

/-- Four empty buffers. -/
def Bufs.empty : Bufs := { b0 := [], b1 := [], b2 := [], b3 := [] }

/-! ### Fields of the read pointer (R34) -/

/-- `BBPTR[17:16]`. -/
def ptrBuf (p : BitVec 18) : BitVec 2 := p.extractLsb' 16 2

/-- `BBPTR[15:0]`. -/
def ptrBit (p : BitVec 18) : BitVec 16 := p.extractLsb' 0 16

/-- The low `w` bits of a written word, in a 16-bit register that has `w` bits (R14 b, R30, R32). -/
def keepLow (w : Nat) (v : Word) : BitVec 16 := BitVec.ofNat 16 (v.toNat % 2 ^ w)

end Sys2Proof.Machine
end

