-- ==== Sys2Proof/Machine/Ops.lean ====
section
/-! DEFINITION. The named operations over the state: buffers, codeword file, remainder registers, capacity
register, payload memory; entering an error (R224), clearing it (R226), the sticky test (R222), the two
resets (R240). -/
namespace Sys2Proof.Machine

/-! ### Registers -/

/-- `BB[d]` (R21). -/
def State.buf (s : State) (d : BitVec 2) : Bits := s.bb.get d

/-- `BB[d] <- x` (R10). -/
def State.setBuf (s : State) (d : BitVec 2) (x : Bits) : State := { s with bb := s.bb.set d x }

/-- `CWN` (R35). -/
def State.cwn (s : State) : Nat := s.cw.length

/-- `REMN` (R36). -/
def State.remn (s : State) : Nat := s.rem.length

/-- `CWN <- len(c); CW[0..CWN-1] <- c` (R109, R194). -/
def State.setCw (s : State) (c : List Codeword) : State := { s with cw := c }

/-- `REMN <- len(r); REM[0..REMN-1] <- r` (R173 to R175, R194). -/
def State.setRem (s : State) (r : List Codeword) : State := { s with rem := r }

/-- `CAPR <- e; CAPVALID <- 1` (R122). -/
def State.loadEntry (s : State) (e : CapEntry) : State := { s with capr := e, capvalid := true }

/-- `CAPVALID <- 0` (R24, R122). -/
def State.dropEntry (s : State) : State := { s with capvalid := false }

/-- A host write of `VERSION` (R30): the low `VKEY_W` bits, and `CAPVALID <- 0`. -/
def State.writeVersion (s : State) (v : Word) : State :=
  { s with version := keepLow s.cfg.vkeyW v, capvalid := false }

/-- A host write of `MODE` (R31): the low 2 bits, and `CAPVALID <- 0`. -/
def State.writeMode (s : State) (v : Word) : State := { s with mode := v.setWidth 2, capvalid := false }

/-- A host write of `PLEN` (R32): the low `PAY_AW` bits. -/
def State.writePlen (s : State) (v : Word) : State := { s with plen := keepLow s.cfg.payAw v }

/-- A host write of `BBPTR` (R34): bits 17:0. -/
def State.writeBbptr (s : State) (v : Word) : State := { s with bbptr := v.setWidth 18 }

/-- A host write of `CWPTR` (R35): bits 15:0. -/
def State.writeCwptr (s : State) (v : Word) : State := { s with cwptr := v.setWidth 16 }

/-- A host write of `REMPTR` (R36): bits 7:0. -/
def State.writeRemptr (s : State) (v : Word) : State := { s with remptr := v.setWidth 8 }

/-- The host has taken the access at the head of its list (log 2). -/
def State.setHost (s : State) (h : List Access) : State := { s with host := h }

/-- The port hands the host the data of a read (R66: nothing else changes). -/
def State.setReply (s : State) (r : Reply) : State := { s with reply := some r }

/-! ### Payload memory (R38): a canonical list of the written bytes -/

/-- The byte written at `a`, `none` where nothing has been written since hardware reset. -/
def memFind : List Host.Cell → Nat → Option Byte
  | [], _ => none
  | (k, v) :: m, a => if a = k then some v else memFind m a

/-- The memory with byte `v` at `a`, addresses kept strictly rising. -/
def memInsert : List Host.Cell → Nat → Byte → List Host.Cell
  | [], a, v => [(a, v)]
  | (k, w) :: m, a, v =>
    if a < k then (a, v) :: (k, w) :: m
    else if a = k then (a, v) :: m
    else (k, w) :: memInsert m a v

/-- Every listed address is above `lo`. -/
def memAbove (lo : Nat) : List Host.Cell → Bool
  | [] => true
  | (k, _) :: m => decide (lo < k) && memAbove lo m

/-- The canonical form: addresses strictly rising. An unlisted address stores nothing, and no entry stores
nothing, so a list in this form is the only one with its contents (log 5). -/
def memWf : List Host.Cell → Bool
  | [] => true
  | (k, _) :: m => memAbove k m && memWf m

/-- Every listed address is one of the payload space (R38). -/
def memBelow (n : Nat) : List Host.Cell → Bool
  | [] => true
  | (k, _) :: m => decide (k < n) && memBelow n m

/-- What an unlisted payload address reads as (R40): a free value, fixed for an address until the next
hardware reset. DESIGN CHOICE (log 4), safe. -/
def unwrittenByte (epoch a : Nat) : Byte := Config.freePayload epoch a

/-- `MemRead(a, 1)`: the byte `PAY[a]` (R10, R38). -/
def State.payByte (s : State) (a : Nat) : Byte := (memFind s.pay a).getD (unwrittenByte s.payEpoch a)

/-- `MemWrite(a, 1, v)`: a host write of payload byte `a` (R10, R66). -/
def State.writePay (s : State) (a : Nat) (v : Byte) : State := { s with pay := memInsert s.pay a v }

/-- The payload: `PAY[0], ..., PAY[PLEN-1]`, first character first (R32, R62). -/
def State.payload (s : State) : List Byte := (List.range s.plen.toNat).map s.payByte

/-! ### Errors (R210 to R227) -/

/-- The code of an error kind (R211). -/
def errCode : ErrKind → BitVec 4
  | .unsupportedVersionOrMode => 1
  | .invalidDigit => 2
  | .characterCountOverflow => 3
  | .dataCapacityExceeded => 4
  | .unsupportedMode => 5
  | .internalInvariant => 6
  | .illegalCommand => 7
  | .bufferOverflow => 8
  | .notConfigured => 9

/-- `raise E(info)` (R224): `ERRCODE <- code(E); ERRINFO <- info`; the command ends, nothing else changes. The
block's one way of taking an exception: no pc, no vector, no mode. -/
def State.raise (s : State) (e : ErrKind) (info : BitVec 16) : State :=
  { s with errcode := errCode e, errinfo := info }

/-- Clearing the record (R197, R226): the block's return from an error. -/
def State.clearErr (s : State) : State := { s with errcode := 0, errinfo := 0 }

/-- The common entry test (R222): while `ERRCODE != 0` a command changes no state at all. -/
def whenClear (s : State) (body : State) : State := if s.errcode = 0 then body else s

/-- The next state of a command all of whose effects are in `body`, behind the entry test (R222). -/
def command (s : State) (body : State) : Host.Outcome State Fault Refusal := .next (whenClear s body)

/-- An illegal command word (R85, R218): `raise IllegalCommand`, or ignored while an error is recorded. -/
def illegalCommand (s : State) : Host.Outcome State Fault Refusal := command s (s.raise .illegalCommand 0)

/-! ### The two resets (R40, R240) -/

/-- The "after `RESET` command" column of R40: every register at its reset value, `PAY` unchanged. -/
def State.resetCommand (s : State) : State :=
  { s with bb := Bufs.empty, cw := [], rem := [], capr := CapEntry.zero, capvalid := false,
           version := 0, mode := 0, plen := 0, errcode := 0, errinfo := 0, bbptr := 0, cwptr := 0, remptr := 0 }

/-- Hardware reset (R240): the "after hardware reset" column of R40; the payload is unspecified anew. The
parameters and the accesses the host has still to make stay. DESIGN CHOICE (log 11), safe. -/
def State.hardReset (s : State) : State :=
  { State.resetWith s.cfg with payEpoch := s.payEpoch + 1, host := s.host }

end Sys2Proof.Machine
end

