-- ==== Sys2Proof/Machine/Capacity.lean ====
section
/-! DEFINITION. The capacity lookup LOOKUP (41_capacity_lookup.md). -/
namespace Sys2Proof.Machine

/-- A failed lookup (R122, R212): `CAPVALID <- 0`, kept even though the command raises (R225). -/
def State.lookupFailed (s : State) : State := s.dropEntry.raise .unsupportedVersionOrMode 0

/-- `LOOKUP`: load the capacity register for the pair in `VERSION` and `MODE` (R122). -/
def execLookup (s : State) : Host.Outcome State Fault Refusal :=
  command s (match lookup s.cfg s.version s.mode with
    | none => s.lookupFailed
    | some e => s.loadEntry e)

end Sys2Proof.Machine
end

