-- ==== Sys2Proof/Machine/BitBuffer.lean ====
section
/-! DEFINITION. The bit-buffer commands BBCLR, BBAPPV, BBCAT, BBTOCW, BBAPPCW (40_bit_buffer.md). -/
namespace Sys2Proof.Machine

/-- Replaces `BB[d]` by `x`, or raises `BufferOverflow` where `x` is longer than `BBCAP` (R219). -/
def State.storeBuf (s : State) (d : BitVec 2) (x : Bits) : State :=
  if overCap s.cfg x.length then s.raise .bufferOverflow 0 else s.setBuf d x

/-- `BBCLR d`: `BB[d] <- []` (R106). -/
def execBbclr (d : BitVec 2) (s : State) : Host.Outcome State Fault Refusal := command s (s.setBuf d [])

/-- `BBAPPV d, w, imm`: append `bits(imm, w)` (R107). `w` in 17..31 is no command (R85): no word decodes to
it, and the term raises `IllegalCommand`. -/
def execBbappv (d : BitVec 2) (w : BitVec 5) (imm : BitVec 16) (s : State) : Host.Outcome State Fault Refusal :=
  if w.toNat ≤ 16 then command s (s.storeBuf d (appendValue (s.buf d) imm.toNat w.toNat)) else illegalCommand s

/-- `BBCAT d, s`: append `BB[src]` to `BB[d]`, both read before the write (R108). -/
def execBbcat (d src : BitVec 2) (s : State) : Host.Outcome State Fault Refusal :=
  command s (s.storeBuf d (appendBuffer (s.buf d) (s.buf src)))

/-- `BBTOCW s`: `CW <- to_codewords(BB[src])` (R109); `BB[src]` is not changed. -/
def execBbtocw (src : BitVec 2) (s : State) : Host.Outcome State Fault Refusal :=
  command s (s.setCw (toCodewords (s.buf src)))

/-- `BBAPPCW d`: append the remainder registers, `REM[0]` first, eight bits each (R110). -/
def execBbappcw (d : BitVec 2) (s : State) : Host.Outcome State Fault Refusal :=
  command s (s.storeBuf d (appendCodewords (s.buf d) s.rem))

end Sys2Proof.Machine
end

