-- ==== Sys2Proof/Machine/Numeric.lean ====
section
/-! DEFINITION. The numeric-mode encoder and NUMENC (42_numeric_encoder.md). -/
namespace Sys2Proof.Machine

/-- An error with its information word, as `raise` takes them (R224). -/
structure Failure where
  kind : ErrKind
  info : BitVec 16
  deriving DecidableEq, Repr

/-- `raise` of a failure (R224). -/
def State.fail (s : State) (f : Failure) : State := s.raise f.kind f.info

/-- "A byte `c` is a digit exactly when `0x30 <= c <= 0x39`" (R132). -/
def isDigit (c : Byte) : Bool := decide (0x30 ≤ c.toNat) && decide (c.toNat ≤ 0x39)

/-- The digit value `c - 0x30` (R132). -/
def digit (c : Byte) : Nat := c.toNat - 0x30

/-- The least position, counted from `i`, of a byte that is no digit (R132). -/
def firstNonDigit : List Byte → Nat → Option Nat
  | [], _ => none
  | c :: cs, i => if isDigit c then firstNonDigit cs (i + 1) else some i

/-- The group codes, concatenated (R131, R133): three digits in 10 bits, a last two in 7, a last one in 4. A
group of another length does not exist (R134). -/
def groupCodes : List Byte → Bits
  | a :: b :: c :: rest => bits (100 * digit a + 10 * digit b + digit c) 10 ++ groupCodes rest
  | [a, b] => bits (10 * digit a + digit b) 7
  | [a] => bits (digit a) 4
  | [] => []

/-- The mode-indicator bits of an entry (R120, R136). -/
def modeIndicator (e : CapEntry) : Bits := bits e.miBits.toNat e.miWidth.toNat

/-- `numeric_encode(e, p)` (R130): the count test (R135) before the digit test (R132). UNVERIFIED (log 13: the
order of the two tests is the spec's decision D12), unsafe only where both fail. -/
def numericEncode (e : CapEntry) (p : List Byte) : Except Failure Bits :=
  if 2 ^ e.ccw.toNat ≤ p.length then .error { kind := .characterCountOverflow, info := 0 }
  else match firstNonDigit p 0 with
    | some i => .error { kind := .invalidDigit, info := BitVec.ofNat 16 i }
    | none => .ok (modeIndicator e ++ bits p.length e.ccw.toNat ++ groupCodes p)

/-- `NUMENC d`: encode the payload into `BB[d]`, replacing it (R138). Errors in the order of R138. -/
def execNumenc (d : BitVec 2) (s : State) : Host.Outcome State Fault Refusal :=
  command s (
    if s.capvalid = false then s.raise .notConfigured 0
    else if s.mode ≠ 0 then s.raise .unsupportedMode 0
    else match numericEncode s.capr s.payload with
      | .error f => s.fail f
      | .ok t => s.storeBuf d t)

end Sys2Proof.Machine
end

