-- ==== Sys2Proof/Machine/Padder.lean ====
section
/-! DEFINITION. The capacity-aware padder and PAD (43_padder.md). -/
namespace Sys2Proof.Machine

/-- The terminator (R153): up to `padTerm` zero bits, cut at capacity. -/
def padTerminator (e : CapEntry) (b : Bits) : Bits :=
  b ++ zeroBits (min e.padTerm.toNat (e.dcb.toNat - b.length))

/-- The alignment (R153): zero bits to the next multiple of `padAlign`, cut at capacity. A well-formed entry has
`padAlign >= 1` (R120, log 12). -/
def padAlignment (e : CapEntry) (b : Bits) : Bits :=
  b ++ zeroBits (min ((e.padAlign.toNat - b.length % e.padAlign.toNat) % e.padAlign.toNat) (e.dcb.toNat - b.length))

/-- The pattern injection (R153): the pattern from its first bit, repeated, cut at capacity. A well-formed entry
has `patLen >= 1` (R120, log 12). -/
def padPattern (e : CapEntry) (b : Bits) : Bits :=
  b ++ (List.range (e.dcb.toNat - b.length)).map
    (fun j => (bits e.patBits.toNat e.patLen.toNat).getD (j % e.patLen.toNat) false)

/-- `pad(e, b)` (R153), for `len(b) <= dcb`. -/
def padBits (e : CapEntry) (b : Bits) : Bits := padPattern e (padAlignment e (padTerminator e b))

/-- `PAD d`: pad `BB[d]` to the capacity of the entry in `CAPR` (R154). Errors in the order of R154. -/
def execPad (d : BitVec 2) (s : State) : Host.Outcome State Fault Refusal :=
  command s (
    if s.capvalid = false then s.raise .notConfigured 0
    else if s.capr.dcb.toNat < (s.buf d).length then s.raise .dataCapacityExceeded 0
    else if overCap s.cfg s.capr.dcb.toNat then s.raise .bufferOverflow 0
    else s.setBuf d (padBits s.capr (s.buf d)))

end Sys2Proof.Machine
end

