-- ==== Sys2Proof/Machine/Gf.lean ====
section
/-! DEFINITION. GF(256) arithmetic (R160 to R164), the generator polynomial (R165), and the divider in its two
forms: long division (R169) and shift register (R170). Pure functions of their arguments (R171). -/
namespace Sys2Proof.Machine

/-! ### The field (R160 to R162) -/

/-- `gf_add(a, b) = gf_sub(a, b) = a XOR b` (R161). UNVERIFIED (log 14: general knowledge, G1). -/
def gfAdd (a b : Codeword) : Codeword := a ^^^ b

/-- The carry-less product of the polynomials `a` and the bits of `b` below position `n` (R162, first loop). -/
def clmul (a b : Codeword) : Nat → BitVec 16
  | 0 => 0
  | n + 1 => if b.getLsbD n then clmul a b n ^^^ (a.setWidth 16 <<< n) else clmul a b n

/-- Reduction modulo 0x11D of the bits at positions 8 to `7 + n`, highest first (R162, second loop). -/
def gfReduce : Nat → BitVec 16 → BitVec 16
  | 0, r => r
  | n + 1, r => gfReduce n (if r.getLsbD (8 + n) then r ^^^ ((0x11D : BitVec 16) <<< n) else r)

/-- `gf_mul(a, b)` (R162): the product of the polynomials, reduced modulo `x^8 + x^4 + x^3 + x^2 + 1`.
UNVERIFIED (log 14: general knowledge, G1). -/
def gfMul (a b : Codeword) : Codeword := (gfReduce 7 (clmul a b 8)).setWidth 8

/-! ### The read-only tables EXP and LOG (R163) and what is defined from them (R164) -/

/-- `EXP[i]`, the `i`-th power of the generator element 2. The table has `i` in 0..254; the cycle returns to 1
at 255. -/
def gfExp : Nat → Codeword
  | 0 => 1
  | i + 1 => gfMul (gfExp i) 2

/-- The least `i` at or above `from` (at most `fuel` of them) with `EXP[i] = a`, walking the powers from `x`. -/
def logFrom (a : Codeword) : Nat → Nat → Codeword → Option Nat
  | 0, _, _ => none
  | fuel + 1, i, x => if x = a then some i else logFrom a fuel (i + 1) (gfMul x 2)

/-- `LOG[a]`: the `i` in 0..254 with `EXP[i] = a`; `LOG[0]` does not exist (R163). -/
def gfLog (a : Codeword) : Option Nat := logFrom a 255 0 1

/-- `gf_inv(a)`, which has no value at 0 (R164, log 20). -/
def gfInv (a : Codeword) : Option Codeword :=
  match gfLog a with
  | none => none
  | some i => some (gfExp ((255 - i) % 255))

/-- `gf_div(a, b)`, which has no value at `b = 0` (R164, log 20). No command divides in the field. -/
def gfDiv (a b : Codeword) : Option Codeword :=
  match gfLog b with
  | none => none
  | some j =>
    match gfLog a with
    | none => some 0
    | some i => some (gfExp ((i + 255 - j) % 255))

/-- The table form of the product (R164). -/
def gfMulTable (a b : Codeword) : Codeword :=
  match gfLog a, gfLog b with
  | some i, some j => gfExp ((i + j) % 255)
  | _, _ => 0

/-! ### The generator polynomial (R165) -/

/-- A polynomial times `(x + a)`: the coefficients of `G * x`, each but the first XORed with `a` times the
coefficient before it. -/
def mulRoot (g : List Codeword) (a : Codeword) : List Codeword :=
  List.zipWith gfAdd (g ++ [0]) (0 :: g.map (fun c => gfMul c a))

/-- `G(n)[0..n]`, the coefficients of `(x + 2^0)(x + 2^1)...(x + 2^(n-1))`, highest power first (R165).
UNVERIFIED (log 14: the half-open range is the spec's decision D17). -/
def genPoly : Nat → List Codeword
  | 0 => [1]
  | n + 1 => mulRoot (genPoly n) (gfExp n)

/-! ### Long division (R167 to R169) -/

/-- The list `w` with `g` XORed into its first elements. -/
def xorInto : List Codeword → List Codeword → List Codeword
  | a :: w, b :: g => gfAdd a b :: xorInto w g
  | w, [] => w
  | [], _ => []

/-- `k` steps of the division of the coefficients `w` by `g`: XOR the leading coefficient times `g` into `w`,
then leave the leading coefficient, now 0, behind (R169). -/
def divSteps (g : List Codeword) : Nat → List Codeword → List Codeword
  | 0, w => w
  | _ + 1, [] => []
  | k + 1, f :: w => divSteps g k ((if f = 0 then f :: w else xorInto (f :: w) (g.map (gfMul f))).tail)

/-- `rs_remainder(n, c)`: the remainder of `M(x) * x^n` divided by `g_n(x)`, highest power first (R168, R169).
UNVERIFIED (log 14: the factor `x^n` and the order are the spec's decisions D15, D16). -/
def rsRemainder (n : Nat) (c : List Codeword) : List Codeword :=
  divSteps (genPoly n) c.length (c ++ List.replicate n 0)

/-! ### The shift register (R170) -/

/-- `absorb(n, REM, c)` with `n` the number of registers: `f = c XOR REM[0]`; each register takes its right
neighbour (the last one 0) XOR `f` times its coefficient of `G(n)`. -/
def absorb : List Codeword → Codeword → List Codeword
  | [], _ => []
  | r :: rs, c => List.zipWith gfAdd (rs ++ [0]) ((genPoly (r :: rs).length).tail.map (gfMul (gfAdd c r)))

end Sys2Proof.Machine
end

