-- ==== Sys2Proof/Machine/Rs.lean ====
section
/-! DEFINITION. The Reed-Solomon commands RSCLR, RSSTEP, RSGEN (44_rs_generator.md). -/
namespace Sys2Proof.Machine

/-- `RSCLR`: `REMN <- CAPR.ecc`, every register 0 (R173). -/
def execRsclr (s : State) : Host.Outcome State Fault Refusal :=
  command s (
    if s.capvalid = false then s.raise .notConfigured 0
    else s.setRem (List.replicate s.capr.ecc.toNat 0))

/-- `RSSTEP c`: absorb one data codeword with the polynomial `G(REMN)` (R174); needs no entry. -/
def execRsstep (c : Codeword) (s : State) : Host.Outcome State Fault Refusal := command s (s.setRem (absorb s.rem c))

/-- `RSGEN`: `REMN <- CAPR.ecc; REM <- rs_remainder(REMN, CW)` (R175). -/
def execRsgen (s : State) : Host.Outcome State Fault Refusal :=
  command s (
    if s.capvalid = false then s.raise .notConfigured 0
    else s.setRem (rsRemainder s.capr.ecc.toNat s.cw))

end Sys2Proof.Machine
end

