-- ==== Sys2Proof/Machine/Pipeline.lean ====
section
/-! DEFINITION. The pipeline orchestrator ENCODE (45_pipeline_and_system.md). -/
namespace Sys2Proof.Machine

/-- What a successful run of steps 3 to 6 produces (R194): the output bits, the data codewords, the ECC. -/
structure Encoded where
  out : Bits
  cw : List Codeword
  ecc : List Codeword
  deriving DecidableEq, Repr

/-- Steps 5 and 6 on the padded data (R191, R192): codewords, remainder, `padded ++ ecc` as bits. -/
def finishEncode (e : CapEntry) (padded : Bits) : Encoded :=
  { out := appendCodewords padded (rsRemainder e.ecc.toNat (toCodewords padded)),
    cw := toCodewords padded,
    ecc := rsRemainder e.ecc.toNat (toCodewords padded) }

/-- Steps 3 to 6 (R194) with their errors in the order tested there. -/
def encodePayload (cfg : Config) (e : CapEntry) (p : List Byte) : Except Failure Encoded :=
  match numericEncode e p with
  | .error f => .error f
  | .ok data =>
    if overCap cfg data.length then .error { kind := .bufferOverflow, info := 0 }
    else if e.dcb.toNat < data.length then .error { kind := .dataCapacityExceeded, info := 0 }
    else if overCap cfg e.dcb.toNat then .error { kind := .bufferOverflow, info := 0 }
    else if overCap cfg (e.dcb.toNat + 8 * e.ecc.toNat) then .error { kind := .bufferOverflow, info := 0 }
    else .ok (finishEncode e (padBits e data))

/-- The commit of R194: `BB[0]`, `CW`, `REM`, and no other buffer. -/
def State.commit (s : State) (r : Encoded) : State := ((s.setBuf 0 r.out).setCw r.cw).setRem r.ecc

/-- `ENCODE` (R194): the lookup's writes stay even if a later step raises (R225). -/
def execEncode (s : State) : Host.Outcome State Fault Refusal :=
  command s (match lookup s.cfg s.version s.mode with
    | none => s.lookupFailed
    | some e =>
      if s.mode ≠ 0 then (s.loadEntry e).raise .unsupportedMode 0
      else match encodePayload s.cfg e s.payload with
        | .error f => (s.loadEntry e).fail f
        | .ok r => (s.loadEntry e).commit r)

end Sys2Proof.Machine
end

