-- ==== Sys2Proof/Machine/System.lean ====
section
/-! DEFINITION. The system commands NOP, CLRERR, RESET, and the reserved opcode (45_pipeline_and_system.md,
30_encoding.md). -/
namespace Sys2Proof.Machine

/-- `NOP`: "changes no state in any situation" (R196). -/
def execNop (s : State) : Host.Outcome State Fault Refusal := .next s

/-- `CLRERR` (R197): runs whether or not an error is recorded. -/
def execClrerr (s : State) : Host.Outcome State Fault Refusal := .next s.clearErr

/-- `RESET` (R198): runs even while an error is recorded. -/
def execReset (s : State) : Host.Outcome State Fault Refusal := .next s.resetCommand

/-- A word of the reserved opcode 0xE (R86): an illegal command (R85, R218), whatever its other bits. -/
def execReservedE (_low : BitVec 28) (s : State) : Host.Outcome State Fault Refusal := illegalCommand s

end Sys2Proof.Machine
end

