-- ==== Sys2Proof/Machine/Dispatch.lean ====
section
/-! DEFINITION. What each command does: one arm per constructor, one direct call of its meaning. -/
namespace Sys2Proof.Machine

/-- The meaning of a command (R84's last column). -/
def exec (i : Instr) (s : State) : Host.Outcome State Fault Refusal :=
  match i with
  | .nop => Sys2Proof.Machine.execNop s
  | .bbclr d => Sys2Proof.Machine.execBbclr d s
  | .bbappv d w imm => Sys2Proof.Machine.execBbappv d w imm s
  | .bbcat d src => Sys2Proof.Machine.execBbcat d src s
  | .bbtocw src => Sys2Proof.Machine.execBbtocw src s
  | .lookup => Sys2Proof.Machine.execLookup s
  | .numenc d => Sys2Proof.Machine.execNumenc d s
  | .pad d => Sys2Proof.Machine.execPad d s
  | .rsclr => Sys2Proof.Machine.execRsclr s
  | .rsstep c => Sys2Proof.Machine.execRsstep c s
  | .rsgen => Sys2Proof.Machine.execRsgen s
  | .bbappcw d => Sys2Proof.Machine.execBbappcw d s
  | .encode => Sys2Proof.Machine.execEncode s
  | .clrerr => Sys2Proof.Machine.execClrerr s
  | .reservedE low => Sys2Proof.Machine.execReservedE low s
  | .reset => Sys2Proof.Machine.execReset s

end Sys2Proof.Machine
end

