-- ==== Sys2Proof/Machine/Flags.lean ====
section
/-! DEFINITION. The two flags `ERR` and `CAPVALID` and the register that shows them (R24, R27). No arithmetic
command sets a condition code (R24). -/
namespace Sys2Proof.Machine

/-- `ERR = (ERRCODE != 0)` (R24): a view, not separate state. -/
def State.err (s : State) : Bool := s.errcode != 0

/-- A flag as one bit of a register. -/
def flagBit (b : Bool) : BitVec 1 := BitVec.ofBool b

/-- `STATUS` (R27): [0] `ERR`, [1] `CAPVALID`, bits 31:2 read 0. -/
def State.status (s : State) : Word := field (flagBit s.capvalid) 1 ||| field (flagBit s.err) 0

end Sys2Proof.Machine
end

