-- ==== Sys2Proof/Machine/Port.lean ====
section
/-! DEFINITION. The host's two ports: the register map (R25 to R36, R42), the payload port (R38), the legality of
an access (R63), running a command word (R26), and one host access as a step (R69). -/
namespace Sys2Proof.Machine

/-- A register of the map (R25). -/
inductive Reg where
  | cmd | status | errcode | errinfo | version | mode | plen
  | capDim | capMi | capCcw | capDcb | capEcc | capPad
  | bblen (d : BitVec 2)
  | bbptr | bbbit | cwn | cwptr | cwdata | remn | remptr | remdata
  deriving DecidableEq, Repr

/-- The map of R25: each register with its byte offset. -/
def regMap : List (Nat × Reg) :=
  [ (0x00, .cmd), (0x04, .status), (0x08, .errcode), (0x0C, .errinfo), (0x10, .version), (0x14, .mode),
    (0x18, .plen), (0x20, .capDim), (0x24, .capMi), (0x28, .capCcw), (0x2C, .capDcb), (0x30, .capEcc),
    (0x34, .capPad), (0x40, .bblen 0), (0x44, .bblen 1), (0x48, .bblen 2), (0x4C, .bblen 3), (0x50, .bbptr),
    (0x54, .bbbit), (0x58, .cwn), (0x5C, .cwptr), (0x60, .cwdata), (0x64, .remn), (0x68, .remptr),
    (0x6C, .remdata) ]

/-- The register of a map at an offset, `none` where the offset is reserved or unlisted. -/
def regFind : List (Nat × Reg) → Nat → Option Reg
  | [], _ => none
  | (o, r) :: m, off => if off = o then some r else regFind m off

/-- The register at a byte offset (R25); `none` for a reserved or unlisted offset (R42). -/
def regAt (off : Nat) : Option Reg := regFind regMap off

/-! ### Reading -/

/-- An indexed read (R34 to R36): [31] `INRANGE`, [7:0] the element, 0 where the index is out of range. -/
def elemRead (l : List Codeword) (i : Nat) : Word :=
  match l[i]? with
  | some c => field (1 : BitVec 1) 31 ||| field c 0
  | none => 0

/-- `BBBIT` (R34): [31] `INRANGE`, [0] the bit, 0 where the index is out of range. -/
def bitRead (b : Bits) (i : Nat) : Word :=
  match b[i]? with
  | some x => field (1 : BitVec 1) 31 ||| field (flagBit x) 0
  | none => 0

/-- A count in bits 15:0 of a register: its low 16 bits (R6 for `BBLEN`; for `CWN` with `BBCAP` unbounded
DEDUCED, log 7, unsafe). -/
def lowCount (n : Nat) : Word := BitVec.ofNat 32 (n % 65536)

/-- What a register reads as (R25 to R36). -/
def readReg (s : State) : Reg → Word
  | .cmd => 0
  | .status => s.status
  | .errcode => s.errcode.setWidth 32
  | .errinfo => s.errinfo.setWidth 32
  | .version => s.version.setWidth 32
  | .mode => s.mode.setWidth 32
  | .plen => s.plen.setWidth 32
  | .capDim => s.capr.dim.setWidth 32
  | .capMi => field s.capr.miWidth 8 ||| field s.capr.miBits 0
  | .capCcw => s.capr.ccw.setWidth 32
  | .capDcb => s.capr.dcb.setWidth 32
  | .capEcc => s.capr.ecc.setWidth 32
  | .capPad => field s.capr.patBits 16 ||| field s.capr.patLen 9 ||| field s.capr.padAlign 4
      ||| field s.capr.padTerm 0
  | .bblen d => lowCount (s.buf d).length
  | .bbptr => s.bbptr.setWidth 32
  | .bbbit => bitRead (s.buf (ptrBuf s.bbptr)) (ptrBit s.bbptr).toNat
  | .cwn => lowCount s.cwn
  | .cwptr => s.cwptr.setWidth 32
  | .cwdata => elemRead s.cw s.cwptr.toNat
  | .remn => BitVec.ofNat 32 (s.remn % 256)
  | .remptr => s.remptr.setWidth 32
  | .remdata => elemRead s.rem s.remptr.toNat

/-- What an offset of the register space reads as: 0 where it is reserved or unlisted (R42). -/
def readOffset (s : State) (off : Nat) : Word :=
  match regAt off with
  | some r => readReg s r
  | none => 0

/-! ### Writing -/

/-- A write of word `w` to `CMD` (R26): the command runs completely; the block keeps no copy of `w`. -/
def runWord (w : Word) (s : State) : Host.Outcome State Fault Refusal :=
  match decode w with
  | .ok i => exec i s
  | .error _ => illegalCommand s

/-- A write to a register (R25): `CMD` runs the word, a read-write register stores its bits (R30 to R36), a
read-only one ignores it (R42). -/
def writeReg (s : State) (v : Word) : Reg → Host.Outcome State Fault Refusal
  | .cmd => runWord v s
  | .version => .next (s.writeVersion v)
  | .mode => .next (s.writeMode v)
  | .plen => .next (s.writePlen v)
  | .bbptr => .next (s.writeBbptr v)
  | .cwptr => .next (s.writeCwptr v)
  | .remptr => .next (s.writeRemptr v)
  | .status | .errcode | .errinfo | .capDim | .capMi | .capCcw | .capDcb | .capEcc | .capPad | .bblen _
  | .bbbit | .cwn | .cwdata | .remn | .remdata => .next s

/-- A write to an offset of the register space: ignored where it is reserved or unlisted (R42). -/
def writeOffset (s : State) (off : Nat) (v : Word) : Host.Outcome State Fault Refusal :=
  match regAt off with
  | some r => writeReg s v r
  | none => .next s

/-! ### Legality of an access (R63) and the access itself (R69) -/

/-- Runs a register access that is one aligned 32-bit word inside the register space; stops by name otherwise
(R63; beyond 0x1FFC R38, log 8). The order of the tests is the model's own (log 9). -/
def regAccess (width off : Nat) (k : Host.Outcome State Fault Refusal) : Host.Outcome State Fault Refusal :=
  if width ≠ 32 then .refused (.accessWidth width)
  else if off % 4 ≠ 0 then .refused (.unalignedOffset off)
  else if 0x1FFC < off then .fault (.outsideRegisterSpace off)
  else k

/-- Runs a payload access that is one byte at an address below `2^PAY_AW`; refuses it by name otherwise
(R63). -/
def payAccess (cfg : Config) (width addr : Nat) (k : Host.Outcome State Fault Refusal) :
    Host.Outcome State Fault Refusal :=
  if width ≠ 8 then .refused (.accessWidth width)
  else if 2 ^ cfg.payAw ≤ addr then .refused (.payloadAddress addr)
  else k

/-- One host access with all its effects (R5, R66, R69), or the hardware-reset input (R240). -/
def perform (a : Access) (s : State) : Host.Outcome State Fault Refusal :=
  match a with
  | .regRead width off => regAccess width off (.next (s.setReply (.word (readOffset s off))))
  | .regWrite width off v => regAccess width off (writeOffset s off v)
  | .payRead width addr => payAccess s.cfg width addr (.next (s.setReply (.byte (s.payByte addr))))
  | .payWrite width addr v => payAccess s.cfg width addr (.next (s.writePay addr v))
  | .hardReset => .next s.hardReset

/-- The next access of the host's list, taken off the list and performed; none pending, no step (R13, R248,
log 2). -/
def stepHost (s : State) : Host.Outcome State Fault Refusal :=
  match s.host with
  | [] => .refused .noAccess
  | a :: rest => perform a (s.setHost rest)

/-- The access a command is: `wr CMD, w` (R88). -/
def cmdWrite (w : Word) : Access := .regWrite 32 0x00 w

/-- The host's next access made `wr CMD, w`, before those already pending. -/
def State.pushWord (s : State) (w : Word) : State := s.setHost (cmdWrite w :: s.host)

end Sys2Proof.Machine
end

