-- ==== Sys2Proof/Machine/Step.lean ====
section
/-! DEFINITION. One step of the machine: one host access (R5). -/
namespace Sys2Proof.Machine

/-- One step: the host's next access, and the command it starts when it is a write to `CMD` (R5, R69). -/
def step (s : State) : Host.Outcome State Fault Refusal := stepHost s

/-- `s` with the command whose bits are `w` (bits at `nbits` and above 0) as the host's next access, `wr CMD`:
the block fetches nothing, commands come from the host's writes (R23, R26, log 2). -/
def State.withFetchWord (s : State) (nbits w : Nat) : State := s.pushWord (BitVec.ofNat 32 (w % 2 ^ nbits))

end Sys2Proof.Machine
end

