-- ==== Sys2Proof/Machine/Asm.lean ====
section
/-! DEFINITION. The spec's notation for commands and host accesses (R88) and the pseudo-commands (R89): from a line
of text, as its characters, to the host accesses it stands for. Spaces around words, and an operand that does
not fit its field giving no access, are the model's own reading (log 22). -/
namespace Sys2Proof.Machine

/-! ### Host accesses as lists (R88, R89) -/

/-- A command is itself the access `wr CMD, <word>` (R88). -/
def cmdAccess (i : Instr) : Access := cmdWrite (encode i)

/-- `wr REG, value` at a byte offset (R88). -/
def wr (off : Nat) (v : Nat) : Access := .regWrite 32 off (BitVec.ofNat 32 v)

/-- `wrb` of consecutive characters from address `a` on (R89). -/
def payloadBytes : List Byte → Nat → List Access
  | [], _ => []
  | c :: cs, a => .payWrite 8 a c :: payloadBytes cs (a + 1)

/-- `payload "..."` (R89): the characters, then `wr PLEN, L`. -/
def payloadSeq (p : List Byte) : List Access := payloadBytes p 0 ++ [wr 0x18 p.length]

/-- `select v, m` (R89). -/
def selectSeq (v m : Nat) : List Access := [wr 0x10 v, wr 0x14 m]

/-- The six commands of `encode.seq` (R89, R195). -/
def encodeSeq : List Instr := [.lookup, .numenc 0, .pad 0, .bbtocw 0, .rsgen, .bbappcw 0]

/-! ### Text -/

/-- The digits of a number in a base, most significant first. -/
def digitsVal (base : Nat) : List Nat → Nat → Nat
  | [], acc => acc
  | d :: ds, acc => digitsVal base ds (base * acc + d)

/-- The value of a character as a digit of a base at most 16. -/
def digitOf (base : Nat) (c : Char) : Option Nat :=
  let v := if '0' ≤ c ∧ c ≤ '9' then c.toNat - 48
    else if 'a' ≤ c ∧ c ≤ 'f' then c.toNat - 87
    else if 'A' ≤ c ∧ c ≤ 'F' then c.toNat - 55 else 16
  if v < base then some v else none

/-- A non-empty row of digits of a base. -/
def parseDigits (base : Nat) (cs : List Char) : Option Nat :=
  if cs.isEmpty then none
  else match cs.mapM (digitOf base) with
    | some ds => some (digitsVal base ds 0)
    | none => none

/-- A number: decimal, or hexadecimal after `0x` (R88). -/
def parseNum : List Char → Option Nat
  | '0' :: 'x' :: cs => parseDigits 16 cs
  | cs => parseDigits 10 cs

/-- The text without spaces at its ends. -/
def trimSpaces (cs : List Char) : List Char :=
  ((cs.dropWhile (· == ' ')).reverse.dropWhile (· == ' ')).reverse

/-- The parts of a text between commas; `cur` is the part being read, reversed. -/
def splitComma : List Char → List Char → List (List Char)
  | [], cur => [trimSpaces cur.reverse]
  | c :: cs, cur => if c = ',' then trimSpaces cur.reverse :: splitComma cs [] else splitComma cs (c :: cur)

/-- The operands after a mnemonic: none for an empty text. -/
def operandsOf (cs : List Char) : List (List Char) := if (trimSpaces cs).isEmpty then [] else splitComma cs []

/-- The names of R25's registers with their offsets. -/
def regNames : List (String × Nat) :=
  [ ("CMD", 0x00), ("STATUS", 0x04), ("ERRCODE", 0x08), ("ERRINFO", 0x0C), ("VERSION", 0x10), ("MODE", 0x14),
    ("PLEN", 0x18), ("CAP_DIM", 0x20), ("CAP_MI", 0x24), ("CAP_CCW", 0x28), ("CAP_DCB", 0x2C), ("CAP_ECC", 0x30),
    ("CAP_PAD", 0x34), ("BBLEN[0]", 0x40), ("BBLEN[1]", 0x44), ("BBLEN[2]", 0x48), ("BBLEN[3]", 0x4C),
    ("BBPTR", 0x50), ("BBBIT", 0x54), ("CWN", 0x58), ("CWPTR", 0x5C), ("CWDATA", 0x60), ("REMN", 0x64),
    ("REMPTR", 0x68), ("REMDATA", 0x6C) ]

/-- The offset of a register by its name. -/
def regByName (cs : List Char) : Option Nat :=
  match regNames.find? (fun p => p.1 == String.ofList cs) with
  | some p => some p.2
  | none => none

/-- A number that fits `w` bits. -/
def fits (w n : Nat) : Option (BitVec w) := if n < 2 ^ w then some (BitVec.ofNat w n) else none

/-- A well-formed command as the list of its one access. -/
def oneCmd (i : Option Instr) : Option (List Access) :=
  match i with
  | some i => if i.wf then some [cmdAccess i] else none
  | none => none

/-- A command with no operand, by its lower-case mnemonic (R84, R89). -/
def assemble0 (m : String) : Option (List Access) :=
  if m = "nop" then oneCmd (some .nop)
  else if m = "lookup" then oneCmd (some .lookup)
  else if m = "rsclr" then oneCmd (some .rsclr)
  else if m = "rsgen" then oneCmd (some .rsgen)
  else if m = "encode" then oneCmd (some .encode)
  else if m = "clrerr" then oneCmd (some .clrerr)
  else if m = "reset" then oneCmd (some .reset)
  else if m = "encode.seq" then some (encodeSeq.map cmdAccess)
  else none

/-- A command or access with one number (R84, R88). -/
def assemble1 (m : String) (a : Nat) : Option (List Access) :=
  if m = "bbclr" then oneCmd ((fits 2 a).map .bbclr)
  else if m = "bbtocw" then oneCmd ((fits 2 a).map .bbtocw)
  else if m = "numenc" then oneCmd ((fits 2 a).map .numenc)
  else if m = "pad" then oneCmd ((fits 2 a).map .pad)
  else if m = "bbappcw" then oneCmd ((fits 2 a).map .bbappcw)
  else if m = "rsstep" then oneCmd ((fits 8 a).map .rsstep)
  else if m = "rdb" then some [.payRead 8 a]
  else none

/-- A command, access or pseudo-command with two numbers (R84, R88, R89). -/
def assemble2 (m : String) (a b : Nat) : Option (List Access) :=
  if m = "bbcat" then oneCmd (do some (.bbcat (← fits 2 a) (← fits 2 b)))
  else if m = "bbappbit" then oneCmd (do some (.bbappv (← fits 2 a) 1 (← fits 16 b)))
  else if m = "bbappcwi" then oneCmd (do some (.bbappv (← fits 2 a) 8 (← fits 16 b)))
  else if m = "wrb" then (fits 8 b).map (fun v => [.payWrite 8 a v])
  else if m = "select" then do
    let _ ← fits 32 a
    let _ ← fits 32 b
    some (selectSeq a b)
  else none

/-- The command with three numbers (R84). -/
def assemble3 (m : String) (a b c : Nat) : Option (List Access) :=
  if m = "bbappv" then oneCmd (do some (.bbappv (← fits 2 a) (← fits 5 b) (← fits 16 c))) else none

/-- `rd REG` and `wr REG, value`, whose first operand is a register's name (R88). -/
def assembleReg (m : String) (ops : List (List Char)) : Option (List Access) :=
  match ops with
  | [r] => if m = "rd" then (regByName r).map (fun o => [.regRead 32 o]) else none
  | [r, v] =>
    if m = "wr" then do
      let o ← regByName r
      let x ← fits 32 (← parseNum v)
      some [.regWrite 32 o x]
    else none
  | _ => none

/-- `payload "..."`: the characters between the quotes, each an ASCII character (R89). -/
def assemblePayload (cs : List Char) : Option (List Access) :=
  match trimSpaces cs with
  | '"' :: rest =>
    match rest.reverse with
    | '"' :: body =>
      if body.all (fun c => decide (c.toNat < 128)) then
        some (payloadSeq (body.reverse.map (fun c => BitVec.ofNat 8 c.toNat)))
      else none
    | _ => none
  | _ => none

/-- The accesses a line stands for (R88, R89); the mnemonic is case-insensitive. -/
def assemble (line : List Char) : Option (List Access) :=
  let t := trimSpaces line
  let m := String.ofList ((t.takeWhile (· != ' ')).map Char.toLower)
  let rest := t.dropWhile (· != ' ')
  if m = "payload" then assemblePayload rest
  else if m = "rd" ∨ m = "wr" then assembleReg m (operandsOf rest)
  else match (operandsOf rest).mapM parseNum with
    | some [] => assemble0 m
    | some [a] => assemble1 m a
    | some [a, b] => assemble2 m a b
    | some [a, b, c] => assemble3 m a b c
    | _ => none

end Sys2Proof.Machine
end

