-- ==== Sys2Proof/Safety.lean ====
section
/-! DEFINITION. The terms claims are made in: the invariants of R41, what a step leaves unchanged (frames), runs of
commands, and the value of a polynomial. -/
namespace Sys2Proof.Machine

/-- `n` bits fit a bit buffer: `n <= BBCAP`, always so when `BBCAP` is unbounded (R6, R219). -/
def Fits (cfg : Config) (n : Nat) : Prop := ∀ c, cfg.bbcap = some c → n ≤ c

/-- `CWN <= CWMAX = ceil(BBCAP/8)` (R35). -/
def CwFits (cfg : Config) (n : Nat) : Prop := ∀ c, cfg.bbcap = some c → n ≤ ceilDiv8 c

/-- The invariants of R41, (a) to (f), with what R30, R32 and R38 give the widths of `VERSION`, `PLEN` and the
payload's addresses, and the canonical form of the payload list (log 5). -/
structure Inv (s : State) : Prop where
  /-- the parameters are in the ranges of R6 and the table is well-formed (R7) -/
  params : configWf s.cfg = true
  /-- (a) -/
  entry : s.capvalid = true → lookup s.cfg s.version s.mode = some s.capr
  /-- (b) -/
  bufs : ∀ d, Fits s.cfg (s.buf d).length
  /-- (c) -/
  codewords : CwFits s.cfg s.cwn
  /-- (d) -/
  remainder : s.remn ≤ 255
  /-- (e) -/
  code : s.errcode.toNat ≤ 9
  /-- (e) -/
  info : s.errcode ≠ 2 → s.errinfo = 0
  /-- (f) -/
  entryRange : s.capvalid = true → entryWf s.capr = true
  /-- R30 -/
  versionRange : s.version.toNat < 2 ^ s.cfg.vkeyW
  /-- R32 -/
  plenRange : s.plen.toNat < 2 ^ s.cfg.payAw
  /-- the payload list is canonical -/
  payWf : memWf s.pay = true
  /-- R38 -/
  payRange : memBelow (2 ^ s.cfg.payAw) s.pay = true

/-! ### Frames -/

/-- Every payload byte reads as before (R66). -/
def SamePayload (s t : State) : Prop := ∀ a, t.payByte a = s.payByte a

/-- `t` differs from `s` in bit buffer `d` at most. -/
def OnlyBuf (d : BitVec 2) (s t : State) : Prop :=
  (∀ e, e ≠ d → t.buf e = s.buf e) ∧ t = { s with bb := t.bb } ∧ SamePayload s t

/-- `t` differs from `s` in the codeword file at most. -/
def OnlyCw (s t : State) : Prop := t = { s with cw := t.cw } ∧ SamePayload s t

/-- `t` differs from `s` in the remainder registers at most. -/
def OnlyRem (s t : State) : Prop := t = { s with rem := t.rem } ∧ SamePayload s t

/-- `t` is `s` with the error record written: code `code`, information `info` (R224). -/
def OnlyError (code : BitVec 4) (info : BitVec 16) (s t : State) : Prop :=
  t = { s with errcode := code, errinfo := info } ∧ SamePayload s t

/-- The command `i` ends by `raise` of `code` with `info` from `s` and changes nothing else (R224, R225). -/
def Raises (i : Instr) (s : State) (code : BitVec 4) (info : BitVec 16) : Prop :=
  ∃ t, exec i s = .next t ∧ OnlyError code info s t

/-! ### Runs -/

/-- Commands executed one after another, stopping at the first that does not answer a next state. -/
def execAll : List Instr → State → Host.Outcome State Fault Refusal
  | [], s => .next s
  | i :: is, s =>
    match exec i s with
    | .next t => execAll is t
    | .fault r => .fault r
    | .refused r => .refused r

/-- `s` with `a` as the host's next access, before those already pending. -/
def State.pushAccess (s : State) (a : Access) : State := s.setHost (a :: s.host)

/-! ### The words of a claim -/

/-- The value of a polynomial at `x`, coefficients highest power first (R167). -/
def polyEval (p : List Codeword) (x : Codeword) : Codeword := p.foldl (fun acc c => gfAdd (gfMul acc x) c) 0

/-- Every payload byte below `PLEN` is a digit (R132). -/
def AllDigits (s : State) : Prop := ∀ i, i < s.plen.toNat → 0x30 ≤ (s.payByte i).toNat ∧ (s.payByte i).toNat ≤ 0x39

/-- The bits a last group of `L mod 3` digits takes: 0, 4 or 7 (R140). -/
def tailBits (L : Nat) : Nat := if L % 3 = 0 then 0 else if L % 3 = 1 then 4 else 7

/-- The length of the numeric encoder's result for `L` digits (R140). -/
def encodedLength (e : CapEntry) (L : Nat) : Nat := e.miWidth.toNat + e.ccw.toNat + 10 * (L / 3) + tailBits L

/-- The digit values of the payload at position `i` (R132). -/
def digitAt (p : List Byte) (i : Nat) : Nat := (p.getD i 0).toNat - 0x30

/-- A word is one of the fifteen commands by the printed `match` and `mask` (R84): some row but the reserved one
accepts it, and `BBAPPV` has `WIDTH <= 16`. -/
def IsCommandWord (w : Word) : Prop :=
  ∃ r ∈ opcodeRows, r.mnemonic ≠ "RESERVED_E" ∧ w &&& r.mask = r.pattern
    ∧ (r.mnemonic = "BBAPPV" → (w.extractLsb' 16 5).toNat ≤ 16)

/-- A reserved offset of the register space, by the table of R25. -/
def IsReservedOffset (off : Nat) : Prop := off = 0x1C ∨ off = 0x38 ∨ off = 0x3C ∨ (0x70 ≤ off ∧ off ≤ 0x1FFC)

/-- The offset of a read-only register, by the table of R25. -/
def IsReadOnlyOffset (off : Nat) : Prop :=
  off ∈ [0x04, 0x08, 0x0C, 0x20, 0x24, 0x28, 0x2C, 0x30, 0x34, 0x40, 0x44, 0x48, 0x4C, 0x54, 0x58, 0x60, 0x64, 0x6C]

/-! ### The tables of R21 and R211 -/

/-- The codes each command may raise (R211). -/
def mayRaise : Instr → List (BitVec 4)
  | .lookup => [1]
  | .encode => [1, 2, 3, 4, 5, 8]
  | .numenc _ => [2, 3, 5, 8, 9]
  | .pad _ => [4, 8, 9]
  | .rsclr | .rsgen => [9]
  | .bbappv _ _ _ | .bbcat _ _ | .bbappcw _ => [8]
  | .reservedE _ => [7]
  | .nop | .bbclr _ | .bbtocw _ | .rsstep _ | .clrerr | .reset => []

/-- The bit buffer a command may write, by the table of R21; `RESET` writes all four. -/
def mayWriteBuf : Instr → BitVec 2 → Prop
  | .bbclr d, e | .bbappv d _ _, e | .bbcat d _, e | .numenc d, e | .pad d, e | .bbappcw d, e => e = d
  | .encode, e => e = 0
  | .reset, _ => True
  | .nop, _ | .bbtocw _, _ | .lookup, _ | .rsclr, _ | .rsstep _, _ | .rsgen, _ | .clrerr, _ | .reservedE _, _ => False

end Sys2Proof.Machine
end

