-- ==== Sys2Proof/Certificates/Slice0/Obligations.lean ====
section
/-! DEFINITION. The statements for the provers, family by family of the opcode map, each from the numbered rules
its docstring cites. `s` is the state before, `t` the state after; "`errcode = 0`" is the entry test of R222, and
the case `errcode ≠ 0` of every command is `RecordedErrorIgnoresEveryOtherWord`. -/

open Sys2Proof Sys2Proof.Machine

/-! ### Encoding (30_encoding.md) -/

/-- Command words printed in 95_test_vectors.md and R106 to R198 decode to the commands they are printed for: one
of each family. -/
def Obligations.SpecWordsDecodeAsPrinted : Prop :=
  decode 0x00000000 = .ok .nop ∧ decode 0x14000000 = .ok (.bbclr 1) ∧ decode 0x240A007B = .ok (.bbappv 1 10 123)
  ∧ decode 0x39000000 = .ok (.bbcat 2 1) ∧ decode 0x50000000 = .ok .lookup ∧ decode 0x6C000000 = .ok (.numenc 3)
  ∧ decode 0x70000000 = .ok (.pad 0) ∧ decode 0x900000DA = .ok (.rsstep 0xDA) ∧ decode 0xB8000000 = .ok (.bbappcw 2)
  ∧ decode 0xC0000000 = .ok .encode ∧ decode 0xD0000000 = .ok .clrerr ∧ decode 0xF0000000 = .ok .reset

/-- R80 to R84: decoding the word of a well-formed command gives it back, every operand at every value. -/
def Obligations.DecodeOfEncodeIsTheCommand : Prop := ∀ i : Instr, i.wf = true → decode (encode i) = .ok i

/-- R80 to R85: a word that decodes is the word of the command it decodes to, which is well-formed; no bit of it
is dropped. -/
def Obligations.EncodeOfDecodeIsTheWord : Prop :=
  ∀ (w : Word) (i : Instr), decode w = .ok i → i.wf = true ∧ encode i = w

/-- R84, R85: the words that decode to one of the fifteen commands are those a row of the printed opcode map other
than the reserved one accepts, with `WIDTH <= 16` for `BBAPPV`; every other word is rejected by name or reserved. -/
def Obligations.CommandWordsAreThoseOfTheMap : Prop :=
  ∀ w : Word, IsCommandWord w ↔ ∃ i, decode w = .ok i ∧ i.isCommand = true

/-- R85, R86, R218: a word that is no command, written to `CMD`, records error 7 with information 0 and changes
nothing else; while an error is recorded it is ignored. -/
def Obligations.IllegalWordRaisesIllegalCommand : Prop :=
  ∀ (w : Word) (s : State), ¬ IsCommandWord w →
    (s.errcode = 0 → ∃ t, runWord w s = .next t ∧ OnlyError 7 0 s t) ∧ (s.errcode ≠ 0 → runWord w s = .next s)

/-! ### The step (R5, R13, R26, R63, R69) -/

/-- R26, R69, R85, R222: when the host's next access writes `w` to `CMD`, the step takes the access off the host's
list (the model's own, log 2) and runs `w`, whatever `w` is: where `w` decodes to `i`, `i` is well-formed and the step
is `exec i`; where decoding rejects `w`, the step records error 7 with information 0 if no error is recorded, and
ignores `w` if one is. -/
def Obligations.StepRunsTheDecodedCommand : Prop :=
  ∀ (s : State) (w : Word) (rest : List Access), s.host = .regWrite 32 0x00 w :: rest →
    step s = runWord w { s with host := rest }
    ∧ (∀ i, decode w = .ok i → i.wf = true ∧ step s = exec i { s with host := rest })
    ∧ (∀ r, decode w = .error r → s.errcode = 0 →
        step s = .next { s with host := rest, errcode := 7, errinfo := 0 })
    ∧ (∀ r, decode w = .error r → s.errcode ≠ 0 → step s = .next { s with host := rest })

/-- R63 (refusals), R13 (no access, no step), and the model's choices of logs 8 and 9 (a register offset above
0x1FFC faults; width is tested first, then alignment, then range): when an access stops. -/
def Obligations.IllegalAccessesStopByName : Prop :=
  ∀ (s : State) (rest : List Access) (width off a : Nat) (v : Word) (b : Byte),
    (s.host = [] → step s = .refused .noAccess)
    ∧ (width ≠ 32 → s.host = .regRead width off :: rest ∨ s.host = .regWrite width off v :: rest →
        step s = .refused (.accessWidth width))
    ∧ (off % 4 ≠ 0 → s.host = .regRead 32 off :: rest ∨ s.host = .regWrite 32 off v :: rest →
        step s = .refused (.unalignedOffset off))
    ∧ (off % 4 = 0 → 0x1FFC < off → s.host = .regRead 32 off :: rest ∨ s.host = .regWrite 32 off v :: rest →
        step s = .fault (.outsideRegisterSpace off))
    ∧ (width ≠ 8 → s.host = .payRead width a :: rest ∨ s.host = .payWrite width a b :: rest →
        step s = .refused (.accessWidth width))
    ∧ (2 ^ s.cfg.payAw ≤ a → s.host = .payRead 8 a :: rest ∨ s.host = .payWrite 8 a b :: rest →
        step s = .refused (.payloadAddress a))

/-! ### Bit sequences (R9, R61, R101) -/

/-- R9: `bits(v, w)` has `w` bits, `val(bits(v, w)) = v mod 2^w`, and `bits` of a sequence's value at its own
length is the sequence. -/
def Obligations.ValInvertsBits : Prop :=
  (∀ v w : Nat, (bits v w).length = w ∧ val (bits v w) = v % 2 ^ w) ∧ ∀ b : Bits, bits (val b) b.length = b

/-- R101: `append_value(b, v, w)` has length `len(b) + w`, begins with `b`, its bit `len(b) + i` is `v[w-1-i]`, only
`v mod 2^w` matters, and width 0 appends nothing. -/
def Obligations.AppendValueAppendsTheLowBits : Prop :=
  ∀ (b : Bits) (v w : Nat),
    (appendValue b v w).length = b.length + w ∧ (appendValue b v w).take b.length = b
    ∧ (∀ i, i < w → (appendValue b v w)[b.length + i]? = some (v.testBit (w - 1 - i)))
    ∧ appendValue b (v % 2 ^ w) w = appendValue b v w ∧ appendValue b v 0 = b

/-- R61: which bit of which codeword each bit of a sequence becomes, the zeros of a partial last codeword, and the
bits a codeword contributes when appended. -/
def Obligations.CodewordBitPositions : Prop :=
  ∀ b : Bits,
    (∀ j t, j < b.length / 8 → t ≤ 7 →
      ∃ c, (toCodewords b)[j]? = some c ∧ b[8 * j + t]? = some (c.getLsbD (7 - t)))
    ∧ (b.length % 8 ≠ 0 → ∃ c, (toCodewords b)[b.length / 8]? = some c
        ∧ (∀ t, t < b.length % 8 → b[8 * (b.length / 8) + t]? = some (c.getLsbD (b.length % 8 - 1 - t)))
        ∧ ∀ k, b.length % 8 ≤ k → c.getLsbD k = false)
    ∧ (toCodewords b).length = (b.length + 7) / 8
    ∧ ∀ c : Codeword, appendCodewords b [c] = b ++ bits c.toNat 8

/-! ### Bit-buffer commands (40_bit_buffer.md) -/

/-- R106: `BBCLR d` empties `BB[d]` and changes nothing else. -/
def Obligations.BbclrEmptiesTheBuffer : Prop :=
  ∀ (d : BitVec 2) (s : State), s.errcode = 0 → ∃ t, exec (.bbclr d) s = .next t ∧ t.buf d = [] ∧ OnlyBuf d s t

/-- R107: `BBAPPV d, w, imm` appends the low `w` bits of `imm` where they fit, raises `BufferOverflow` where they
do not, and is `IllegalCommand` at a width above 16. -/
def Obligations.BbappvAppendsTheImmediate : Prop :=
  ∀ (d : BitVec 2) (w : BitVec 5) (imm : BitVec 16) (s : State), s.errcode = 0 →
    (w.toNat ≤ 16 → Fits s.cfg ((s.buf d).length + w.toNat) →
      ∃ t, exec (.bbappv d w imm) s = .next t ∧ t.buf d = s.buf d ++ bits imm.toNat w.toNat ∧ OnlyBuf d s t)
    ∧ (w.toNat ≤ 16 → ¬ Fits s.cfg ((s.buf d).length + w.toNat) → Raises (.bbappv d w imm) s 8 0)
    ∧ (16 < w.toNat → Raises (.bbappv d w imm) s 7 0)

/-- R108: `BBCAT d, src` appends the old `BB[src]` to the old `BB[d]` (also when `src = d`) where the result fits,
and raises `BufferOverflow` where it does not. -/
def Obligations.BbcatAppendsTheSource : Prop :=
  ∀ (d src : BitVec 2) (s : State), s.errcode = 0 →
    (Fits s.cfg ((s.buf d).length + (s.buf src).length) →
      ∃ t, exec (.bbcat d src) s = .next t ∧ t.buf d = s.buf d ++ s.buf src ∧ OnlyBuf d s t)
    ∧ (¬ Fits s.cfg ((s.buf d).length + (s.buf src).length) → Raises (.bbcat d src) s 8 0)

/-- R109, R104: `BBTOCW src` leaves `ceil(len/8)` codewords, codeword `j` the value of bits `8j` to `8j+7` of
`BB[src]` (the last one of the bits that remain), and changes nothing else. -/
def Obligations.BbtocwGroupsTheBuffer : Prop :=
  ∀ (src : BitVec 2) (s : State), s.errcode = 0 →
    ∃ t, exec (.bbtocw src) s = .next t ∧ t.cwn = ((s.buf src).length + 7) / 8
      ∧ (∀ j, j < t.cwn → t.cw[j]? = some (BitVec.ofNat 8 (val (((s.buf src).drop (8 * j)).take 8))))
      ∧ OnlyCw s t

/-- R110: `BBAPPCW d` appends the remainder registers, `REM[0]` first, each as eight bits, most significant first,
where they fit, and raises `BufferOverflow` where they do not. -/
def Obligations.BbappcwAppendsTheRemainder : Prop :=
  ∀ (d : BitVec 2) (s : State), s.errcode = 0 →
    (Fits s.cfg ((s.buf d).length + 8 * s.remn) →
      ∃ t, exec (.bbappcw d) s = .next t ∧ t.buf d = s.buf d ++ s.rem.flatMap (fun c => bits c.toNat 8)
        ∧ OnlyBuf d s t)
    ∧ (¬ Fits s.cfg ((s.buf d).length + 8 * s.remn) → Raises (.bbappcw d) s 8 0)

/-! ### Capacity lookup (41_capacity_lookup.md) -/

/-- R7, R121: in a well-formed table the lookup of a pair is the entry of the row that registers it, and fails
exactly when no row does. -/
def Obligations.LookupFindsTheRegisteredEntry : Prop :=
  ∀ (cfg : Config) (v : BitVec 16) (m : BitVec 2), configWf cfg = true →
    (∀ e, lookup cfg v m = some e ↔ ∃ r ∈ cfg.cap, r.key = v ∧ r.mode = m ∧ r.entry = e)
    ∧ (lookup cfg v m = none ↔ ∀ r ∈ cfg.cap, ¬ (r.key = v ∧ r.mode = m))

/-- R122, R212: `LOOKUP` loads the entry and sets `CAPVALID`; a pair not registered clears `CAPVALID`, keeps
`CAPR`, and records error 1; nothing else changes. -/
def Obligations.LookupLoadsTheEntry : Prop :=
  ∀ s : State, s.errcode = 0 →
    (∀ e, lookup s.cfg s.version s.mode = some e →
      ∃ t, exec .lookup s = .next t ∧ t = { s with capr := e, capvalid := true } ∧ SamePayload s t)
    ∧ (lookup s.cfg s.version s.mode = none →
      ∃ t, exec .lookup s = .next t ∧ t = { s with capvalid := false, errcode := 1, errinfo := 0 }
        ∧ SamePayload s t)

/-! ### Numeric encoder (42_numeric_encoder.md) -/

/-- R131, R133: the group codes of a payload are those of its `L div 3` groups of three in 10 bits, then of a last
group of two in 7 bits or of one in 4 bits. -/
def Obligations.GroupCodesFollowThePartition : Prop :=
  ∀ p : List Byte,
    groupCodes p =
      (List.range (p.length / 3)).flatMap
        (fun g => bits (100 * digitAt p (3 * g) + 10 * digitAt p (3 * g + 1) + digitAt p (3 * g + 2)) 10)
      ++ (if p.length % 3 = 1 then bits (digitAt p (p.length - 1)) 4
          else if p.length % 3 = 2 then bits (10 * digitAt p (p.length - 2) + digitAt p (p.length - 1)) 7
          else [])

/-- The length of the encoder's result (the spec's own inference, R140, from R131, R133 and R136). -/
def Obligations.NumericEncodeLength : Prop :=
  ∀ (e : CapEntry) (p : List Byte) (b : Bits), numericEncode e p = .ok b →
    b.length = e.miWidth.toNat + e.ccw.toNat + 10 * (p.length / 3)
      + (if p.length % 3 = 0 then 0 else if p.length % 3 = 1 then 4 else 7)

/-- R136, R138: with an entry loaded, Numeric mode, a count that fits `ccw` bits, digits only and a result that fits
the buffer, `NUMENC d` replaces `BB[d]` by mode indicator, count and group codes, and changes nothing else. -/
def Obligations.NumencWritesTheEncodedPayload : Prop :=
  ∀ (d : BitVec 2) (s : State), s.errcode = 0 → s.capvalid = true → s.mode = 0 →
    s.plen.toNat < 2 ^ s.capr.ccw.toNat → AllDigits s → Fits s.cfg (encodedLength s.capr s.plen.toNat) →
    ∃ t, exec (.numenc d) s = .next t
      ∧ t.buf d = bits s.capr.miBits.toNat s.capr.miWidth.toNat ++ bits s.plen.toNat s.capr.ccw.toNat
          ++ groupCodes s.payload
      ∧ OnlyBuf d s t

/-- R132, R135, R137, R138, R220: the errors of `NUMENC`, in their order (the order of the count and the digit test
is the spec's decision D12, log 13). -/
def Obligations.NumencRaisesTheFirstError : Prop :=
  ∀ (d : BitVec 2) (s : State), s.errcode = 0 →
    (s.capvalid = false → Raises (.numenc d) s 9 0)
    ∧ (s.capvalid = true → s.mode ≠ 0 → Raises (.numenc d) s 5 0)
    ∧ (s.capvalid = true → s.mode = 0 → 2 ^ s.capr.ccw.toNat ≤ s.plen.toNat → Raises (.numenc d) s 3 0)
    ∧ (s.capvalid = true → s.mode = 0 → s.plen.toNat < 2 ^ s.capr.ccw.toNat →
        ∀ i, i < s.plen.toNat → ((s.payByte i).toNat < 0x30 ∨ 0x39 < (s.payByte i).toNat) →
          (∀ j, j < i → 0x30 ≤ (s.payByte j).toNat ∧ (s.payByte j).toNat ≤ 0x39) →
          Raises (.numenc d) s 2 (BitVec.ofNat 16 i))
    ∧ (s.capvalid = true → s.mode = 0 → s.plen.toNat < 2 ^ s.capr.ccw.toNat → AllDigits s →
        ¬ Fits s.cfg (encodedLength s.capr s.plen.toNat) → Raises (.numenc d) s 8 0)

/-! ### Padder (43_padder.md) -/

/-- R150, R151, R154: with an entry loaded, a buffer not longer than `dcb` and a `dcb` that fits, `PAD d` gives
`BB[d]` length exactly `dcb` with its old bits first, and changes nothing else; otherwise the errors of R154 in
their order. A second `PAD d` changes nothing. -/
def Obligations.PadExtendsToTheCapacity : Prop :=
  ∀ (d : BitVec 2) (s : State), s.errcode = 0 →
    (s.capvalid = true → (s.buf d).length ≤ s.capr.dcb.toNat → Fits s.cfg s.capr.dcb.toNat →
      ∃ t, exec (.pad d) s = .next t ∧ (t.buf d).length = s.capr.dcb.toNat
        ∧ (t.buf d).take (s.buf d).length = s.buf d ∧ t.buf d = padBits s.capr (s.buf d) ∧ OnlyBuf d s t)
    ∧ (s.capvalid = false → Raises (.pad d) s 9 0)
    ∧ (s.capvalid = true → s.capr.dcb.toNat < (s.buf d).length → Raises (.pad d) s 4 0)
    ∧ (s.capvalid = true → (s.buf d).length ≤ s.capr.dcb.toNat → ¬ Fits s.cfg s.capr.dcb.toNat →
        Raises (.pad d) s 8 0)
    ∧ ∀ t, exec (.pad d) s = .next t → exec (.pad d) t = .next t

/-- R153: the three parts of the padding of a well-formed entry: `t` terminator zeros, `a` alignment zeros, each cut
at capacity, then the pattern from its first bit, repeated. -/
def Obligations.PaddingHasThreeParts : Prop :=
  ∀ (e : CapEntry) (b : Bits) (t a : Nat), entryWf e = true → b.length ≤ e.dcb.toNat →
    t = min e.padTerm.toNat (e.dcb.toNat - b.length) →
    a = min ((e.padAlign.toNat - (b.length + t) % e.padAlign.toNat) % e.padAlign.toNat)
          (e.dcb.toNat - (b.length + t)) →
    padBits e b = b ++ List.replicate (t + a) false
      ++ (List.range (e.dcb.toNat - (b.length + t + a))).map
          (fun j => e.patBits.toNat.testBit (e.patLen.toNat - 1 - j % e.patLen.toNat))

/-- R150, R152: under the zero-fill policy `PAD d` appends `dcb - len` zero bits. -/
def Obligations.ZeroFillPadsWithZeros : Prop :=
  ∀ (d : BitVec 2) (s : State), s.errcode = 0 → s.capvalid = true → (s.buf d).length ≤ s.capr.dcb.toNat →
    Fits s.cfg s.capr.dcb.toNat → s.capr.padTerm = 0 → s.capr.padAlign = 1 → s.capr.patLen = 1 →
    s.capr.patBits = 0 →
    ∃ t, exec (.pad d) s = .next t
      ∧ t.buf d = s.buf d ++ List.replicate (s.capr.dcb.toNat - (s.buf d).length) false ∧ OnlyBuf d s t

/-! ### GF(256) (R160 to R166) -/

/-- R162: the product is commutative and associative, distributes over XOR, has one and zero, and no zero
divisors. -/
def Obligations.FieldProductLaws : Prop :=
  (∀ a b : Codeword, gfMul a b = gfMul b a) ∧ (∀ a b c : Codeword, gfMul (gfMul a b) c = gfMul a (gfMul b c))
  ∧ (∀ a b c : Codeword, gfMul a (b ^^^ c) = gfMul a b ^^^ gfMul a c)
  ∧ (∀ a : Codeword, gfMul a 1 = a ∧ gfMul a 0 = 0)
  ∧ ∀ a b : Codeword, gfMul a b = 0 → a = 0 ∨ b = 0

/-- The powers of 2 are 255 distinct elements, all the non-zero ones, with period 255; `LOG` inverts `EXP`;
`LOG[0]` does not exist (the spec's own inference R163, from R160 and R162). -/
def Obligations.ExpAndLogTables : Prop :=
  gfExp 0 = 1 ∧ (∀ i, gfExp (i + 1) = gfMul (gfExp i) 2) ∧ gfMul (gfExp 254) 2 = 1
  ∧ (∀ i, i < 255 → gfLog (gfExp i) = some i)
  ∧ (∀ a : Codeword, a ≠ 0 → ∃ i, i < 255 ∧ gfLog a = some i ∧ gfExp i = a) ∧ gfLog 0 = none

/-- The table forms of product, inverse and quotient agree with the product of R162; `gf_inv(0)` and
`gf_div(a, 0)` have no value (the spec's own inference, R164, from R162 and R163; log 20). -/
def Obligations.TableFormsAgreeWithTheProduct : Prop :=
  (∀ a b : Codeword, gfMulTable a b = gfMul a b)
  ∧ (∀ a : Codeword, a ≠ 0 → ∃ b, gfInv a = some b ∧ gfMul a b = 1)
  ∧ (∀ a b : Codeword, b ≠ 0 → ∃ q, gfDiv a b = some q ∧ gfMul q b = a)
  ∧ gfInv 0 = none ∧ ∀ a : Codeword, gfDiv a 0 = none

/-- R165: the generator polynomial of degree `n` has `n + 1` coefficients, the first of them 1, and the roots
`2^0 .. 2^(n-1)`. -/
def Obligations.GeneratorPolynomialRoots : Prop :=
  ∀ n : Nat, (genPoly n).length = n + 1 ∧ (genPoly n).head? = some 1
    ∧ ∀ i, i < n → polyEval (genPoly n) (gfExp i) = 0

/-! ### The divider (R167 to R175) -/

/-- R168, R169: a remainder has exactly `n` coefficients, and data followed by it, as one polynomial, has every root
of the generator polynomial (the same as being a multiple of it only for `n <= 255`, where the roots differ). -/
def Obligations.DataWithRemainderHasEveryRoot : Prop :=
  ∀ (n : Nat) (c : List Codeword), (rsRemainder n c).length = n
    ∧ ∀ i, i < n → polyEval (c ++ rsRemainder n c) (gfExp i) = 0

/-- The spec's own inferences R172 (a), (b), (d), (e) from R168 and R169: (a) zero data gives zeros; (b) the remainder is linear, and leading zero codewords do not change it;
(d) for `n = 1` the one codeword is the XOR of all data codewords; (e) `n = 0` gives none, no data gives `n` zeros. -/
def Obligations.RemainderLaws : Prop :=
  (∀ n k : Nat, rsRemainder n (List.replicate k 0) = List.replicate n 0)
  ∧ (∀ (n : Nat) (c c' : List Codeword), c.length = c'.length →
      rsRemainder n (List.zipWith (· ^^^ ·) c c') = List.zipWith (· ^^^ ·) (rsRemainder n c) (rsRemainder n c'))
  ∧ (∀ (n k : Nat) (c : List Codeword), rsRemainder n (List.replicate k 0 ++ c) = rsRemainder n c)
  ∧ (∀ c : List Codeword, rsRemainder 1 c = [c.foldl (· ^^^ ·) 0])
  ∧ (∀ c : List Codeword, rsRemainder 0 c = []) ∧ ∀ n : Nat, rsRemainder n [] = List.replicate n 0

/-- R173, R220: `RSCLR` sets `ecc` registers, all zero, and changes nothing else; with no entry loaded it raises
`NotConfigured`. -/
def Obligations.RsclrClearsTheDivider : Prop :=
  ∀ s : State, s.errcode = 0 →
    (s.capvalid = true → ∃ t, exec .rsclr s = .next t ∧ t.remn = s.capr.ecc.toNat
      ∧ (∀ i, i < t.remn → t.rem[i]? = some 0) ∧ OnlyRem s t)
    ∧ (s.capvalid = false → Raises .rsclr s 9 0)

/-- R170, R174: `RSSTEP c` with `n` registers and feedback `f = c XOR REM[0]` sets each register to its right
neighbour (0 for the last) XOR `f` times the next coefficient of `G(n)`, all from the old registers; nothing else
changes; with no register nothing changes. -/
def Obligations.RsstepAbsorbsTheCodeword : Prop :=
  ∀ (c : Codeword) (s : State), s.errcode = 0 →
    ∃ t, exec (.rsstep c) s = .next t ∧ t.remn = s.remn
      ∧ (∀ i, i < s.remn → t.rem[i]? = some (s.rem.getD (i + 1) 0
          ^^^ gfMul (c ^^^ s.rem.getD 0 0) ((genPoly s.remn).getD (i + 1) 0)))
      ∧ OnlyRem s t

/-- R175, R220: `RSGEN` leaves the remainder of the codeword file in `ecc` registers and changes nothing else; with no
entry loaded it raises `NotConfigured`. -/
def Obligations.RsgenDividesTheCodewordFile : Prop :=
  ∀ s : State, s.errcode = 0 →
    (s.capvalid = true → ∃ t, exec .rsgen s = .next t ∧ t.rem = rsRemainder s.capr.ecc.toNat s.cw
      ∧ t.remn = s.capr.ecc.toNat ∧ OnlyRem s t)
    ∧ (s.capvalid = false → Raises .rsgen s 9 0)

/-- R170, R175: `RSGEN` equals `RSCLR` followed by `RSSTEP` of every codeword of the file in order: the long division
and the shift register are one divider (the spec's own inference, R170). -/
def Obligations.RsgenEqualsTheShiftRegister : Prop :=
  ∀ s : State, s.errcode = 0 → s.capvalid = true →
    exec .rsgen s = execAll (.rsclr :: s.cw.map Instr.rsstep) s

/-! ### The pipeline (45_pipeline_and_system.md) -/

/-- R192, R194: for a registered Numeric pair, a count that fits, digits only, a result within `dcb` and an output
that fits, `ENCODE` leaves in `BB[0]` the padded data followed by the ECC codewords, `dcb + 8*ecc` bits in all, with
the codewords in `CW`, the ECC in `REM` and the entry loaded; nothing else changes. -/
def Obligations.EncodeWritesTheOutputStream : Prop :=
  ∀ (s : State) (e : CapEntry), s.errcode = 0 → lookup s.cfg s.version s.mode = some e → s.mode = 0 →
    s.plen.toNat < 2 ^ e.ccw.toNat → AllDigits s → encodedLength e s.plen.toNat ≤ e.dcb.toNat →
    Fits s.cfg (e.dcb.toNat + 8 * e.ecc.toNat) →
    ∃ t padded, exec .encode s = .next t
      ∧ padded = padBits e (bits e.miBits.toNat e.miWidth.toNat ++ bits s.plen.toNat e.ccw.toNat
          ++ groupCodes s.payload)
      ∧ padded.length = e.dcb.toNat
      ∧ t.cw = toCodewords padded ∧ t.rem = rsRemainder e.ecc.toNat (toCodewords padded)
      ∧ t.buf 0 = padded ++ t.rem.flatMap (fun c => bits c.toNat 8)
      ∧ (t.buf 0).length = e.dcb.toNat + 8 * e.ecc.toNat
      ∧ (∀ d, d ≠ 0 → t.buf d = s.buf d)
      ∧ t = { s with bb := t.bb, cw := t.cw, rem := t.rem, capr := e, capvalid := true } ∧ SamePayload s t

/-- The spec's own inference R193, from R191 and R192: for a registered Numeric pair and an all-digit payload, with `dcb + 8*ecc <= BBCAP`, `ENCODE` succeeds
exactly when `L < 2^ccw` and the encoded length is at most `dcb`; the result then has `dcb + 8*ecc` bits. -/
def Obligations.EncodeSucceedsExactlyWhenThePayloadFits : Prop :=
  ∀ (s : State) (e : CapEntry), s.errcode = 0 → lookup s.cfg s.version s.mode = some e → s.mode = 0 →
    AllDigits s → Fits s.cfg (e.dcb.toNat + 8 * e.ecc.toNat) →
    ∃ t, exec .encode s = .next t
      ∧ (t.errcode = 0 ↔ s.plen.toNat < 2 ^ e.ccw.toNat ∧ encodedLength e s.plen.toNat ≤ e.dcb.toNat)
      ∧ (t.errcode = 0 → (t.buf 0).length = e.dcb.toNat + 8 * e.ecc.toNat)

/-- R194, R223: the errors of `ENCODE` in the order tested; what the lookup wrote stays, nothing else changes (the
order of the count and the digit test is the spec's decision D12, log 13). -/
def Obligations.EncodeRaisesTheFirstError : Prop :=
  ∀ s : State, s.errcode = 0 →
    (lookup s.cfg s.version s.mode = none →
      exec .encode s = .next { s with capvalid := false, errcode := 1, errinfo := 0 })
    ∧ ∀ e, lookup s.cfg s.version s.mode = some e →
      (s.mode ≠ 0 → exec .encode s = .next { s with capr := e, capvalid := true, errcode := 5, errinfo := 0 })
      ∧ (s.mode = 0 → 2 ^ e.ccw.toNat ≤ s.plen.toNat →
          exec .encode s = .next { s with capr := e, capvalid := true, errcode := 3, errinfo := 0 })
      ∧ (s.mode = 0 → s.plen.toNat < 2 ^ e.ccw.toNat →
          ∀ i, i < s.plen.toNat → ((s.payByte i).toNat < 0x30 ∨ 0x39 < (s.payByte i).toNat) →
            (∀ j, j < i → 0x30 ≤ (s.payByte j).toNat ∧ (s.payByte j).toNat ≤ 0x39) →
            exec .encode s
              = .next { s with capr := e, capvalid := true, errcode := 2, errinfo := BitVec.ofNat 16 i })
      ∧ (s.mode = 0 → s.plen.toNat < 2 ^ e.ccw.toNat → AllDigits s → ¬ Fits s.cfg (encodedLength e s.plen.toNat) →
          exec .encode s = .next { s with capr := e, capvalid := true, errcode := 8, errinfo := 0 })
      ∧ (s.mode = 0 → s.plen.toNat < 2 ^ e.ccw.toNat → AllDigits s → Fits s.cfg (encodedLength e s.plen.toNat) →
          e.dcb.toNat < encodedLength e s.plen.toNat →
          exec .encode s = .next { s with capr := e, capvalid := true, errcode := 4, errinfo := 0 })
      ∧ (s.mode = 0 → s.plen.toNat < 2 ^ e.ccw.toNat → AllDigits s → encodedLength e s.plen.toNat ≤ e.dcb.toNat →
          ¬ Fits s.cfg (e.dcb.toNat + 8 * e.ecc.toNat) →
          exec .encode s = .next { s with capr := e, capvalid := true, errcode := 8, errinfo := 0 })

/-- The spec's own inference R195, from R194 and the rules of the six commands: `ENCODE` and the six commands `lookup; numenc 0; pad 0; bbtocw 0; rsgen; bbappcw 0` leave identical state
when no step fails, and otherwise the same error record, differing at most in `BB[0]`, `CW` and `REM`. -/
def Obligations.EncodeEqualsTheSixCommands : Prop :=
  ∀ s : State, s.errcode = 0 →
    ∃ t u, exec .encode s = .next t ∧ execAll [.lookup, .numenc 0, .pad 0, .bbtocw 0, .rsgen, .bbappcw 0] s = .next u
      ∧ u.errcode = t.errcode ∧ u.errinfo = t.errinfo ∧ (t.errcode = 0 → u = t)
      ∧ (∀ d, d ≠ 0 → u.buf d = t.buf d) ∧ u = { t with bb := u.bb, cw := u.cw, rem := u.rem }

/-- R190 (and the spec's own inferences R200, R43 from it): the outcome of `ENCODE` depends on nothing but `VERSION`, `MODE`, `PLEN`, the payload below
`PLEN` and the table: two states that agree on these get the same error record and, on success, the same `BB[0]`,
`CW` and `REM`, whatever else they hold. -/
def Obligations.EncodeIgnoresTheHistory : Prop :=
  ∀ s s' : State, s.errcode = 0 → s'.errcode = 0 → s'.cfg = s.cfg → s'.version = s.version → s'.mode = s.mode →
    s'.plen = s.plen → (∀ i, i < s.plen.toNat → s'.payByte i = s.payByte i) →
    ∃ t t', exec .encode s = .next t ∧ exec .encode s' = .next t'
      ∧ t'.errcode = t.errcode ∧ t'.errinfo = t.errinfo
      ∧ (t.errcode = 0 → t'.buf 0 = t.buf 0 ∧ t'.cw = t.cw ∧ t'.rem = t.rem)

/-! ### System commands and the reserved opcode -/

/-- R196: `NOP` changes no state in any situation. -/
def Obligations.NopChangesNothing : Prop := ∀ s : State, exec .nop s = .next s

/-- R197: `CLRERR` clears the record, whether or not there is one, and changes nothing else. With `ERRCODE = 0` it
changes nothing (`ERRINFO` is then 0 in every state that meets the invariants, R41 (e)). -/
def Obligations.ClrerrClearsTheRecord : Prop :=
  ∀ s : State, (∃ t, exec .clrerr s = .next t ∧ t.err = false ∧ OnlyError 0 0 s t)
    ∧ (s.errcode = 0 → s.errinfo = 0 → exec .clrerr s = .next s)

/-- R198, R40: `RESET` gives every register its reset value in any situation and keeps the payload (and the model's
own fields). -/
def Obligations.ResetCommandResetsEveryRegister : Prop :=
  ∀ s : State, ∃ t, exec .reset s = .next t ∧ (∀ d, t.buf d = []) ∧ t.cwn = 0 ∧ t.remn = 0
    ∧ t.capr = CapEntry.zero ∧ t.capvalid = false ∧ t.version = 0 ∧ t.mode = 0 ∧ t.plen = 0 ∧ t.errcode = 0
    ∧ t.errinfo = 0 ∧ t.bbptr = 0 ∧ t.cwptr = 0 ∧ t.remptr = 0 ∧ t.pay = s.pay ∧ t.payEpoch = s.payEpoch
    ∧ SamePayload s t ∧ t.cfg = s.cfg ∧ t.host = s.host ∧ t.reply = s.reply

/-- R86, R218: a word of the reserved opcode raises `IllegalCommand`, whatever its other bits. -/
def Obligations.ReservedOpcodeIsIllegal : Prop :=
  ∀ (low : BitVec 28) (s : State), s.errcode = 0 → Raises (.reservedE low) s 7 0

/-! ### Errors (60_exceptions.md) -/

/-- R222: while an error is recorded every word but 0xD0000000 and 0xF0000000, legal or not, is ignored; those two
have their effect. -/
def Obligations.RecordedErrorIgnoresEveryOtherWord : Prop :=
  ∀ (s : State) (w : Word), s.errcode ≠ 0 →
    (w ≠ 0xD0000000 → w ≠ 0xF0000000 → runWord w s = .next s)
    ∧ runWord 0xD0000000 s = .next { s with errcode := 0, errinfo := 0 }
    ∧ ∃ t, runWord 0xF0000000 s = .next t ∧ t.errcode = 0 ∧ t.errinfo = 0

/-- R225: a command that raises changes nothing but the error record, except that a failing lookup clears
`CAPVALID` and an `ENCODE` failing after its lookup keeps the entry it loaded. -/
def Obligations.RaisingCommandChangesOnlyTheRecord : Prop :=
  ∀ (i : Instr) (s t : State), s.errcode = 0 → exec i s = .next t → t.errcode ≠ 0 →
    (i ≠ .lookup → i ≠ .encode → t = { s with errcode := t.errcode, errinfo := t.errinfo })
    ∧ (i = .lookup → t = { s with capvalid := false, errcode := t.errcode, errinfo := t.errinfo })
    ∧ (i = .encode → lookup s.cfg s.version s.mode = none →
        t = { s with capvalid := false, errcode := t.errcode, errinfo := t.errinfo })
    ∧ (i = .encode → ∀ e, lookup s.cfg s.version s.mode = some e →
        t = { s with capr := e, capvalid := true, errcode := t.errcode, errinfo := t.errinfo })

/-- R211, R213: which command raises which code; the information is 0 except with code 2, where it is the least
position of a payload byte that is no digit. -/
def Obligations.ErrorCodesRaisedByEachCommand : Prop :=
  ∀ (i : Instr) (s t : State), i.wf = true → s.errcode = 0 → exec i s = .next t → t.errcode ≠ 0 →
    t.errcode ∈ mayRaise i ∧ (t.errcode ≠ 2 → t.errinfo = 0)
    ∧ (t.errcode = 2 → t.errinfo.toNat < s.plen.toNat
        ∧ ((s.payByte t.errinfo.toNat).toNat < 0x30 ∨ 0x39 < (s.payByte t.errinfo.toNat).toNat)
        ∧ ∀ j, j < t.errinfo.toNat → 0x30 ≤ (s.payByte j).toNat ∧ (s.payByte j).toNat ≤ 0x39)

/-- R217 (R134 is the spec's own inference): no step records `InternalInvariant`. -/
def Obligations.InternalInvariantIsNeverRecorded : Prop :=
  ∀ s t : State, step s = .next t → s.errcode ≠ 6 → t.errcode ≠ 6

/-- R6, R219: with `BBCAP` unbounded no step records `BufferOverflow`. -/
def Obligations.UnboundedBuffersNeverOverflow : Prop :=
  ∀ s t : State, s.cfg.bbcap = none → step s = .next t → s.errcode ≠ 8 → t.errcode ≠ 8

/-! ### Frames over all commands -/

/-- R21, R66: no command writes the payload (R38), the parameters, or the host's list; none but `RESET` writes the
input registers and the read pointers. -/
def Obligations.CommandsLeaveTheInputsAlone : Prop :=
  ∀ (i : Instr) (s t : State), exec i s = .next t →
    SamePayload s t ∧ t.pay = s.pay ∧ t.payEpoch = s.payEpoch ∧ t.cfg = s.cfg ∧ t.host = s.host ∧ t.reply = s.reply
    ∧ (i ≠ .reset → t.version = s.version ∧ t.mode = s.mode ∧ t.plen = s.plen ∧ t.bbptr = s.bbptr
        ∧ t.cwptr = s.cwptr ∧ t.remptr = s.remptr)

/-- R21, R24, R33, R35, R36: each command writes no bit buffer but the one the table of R21 gives it; the codeword
file is written by `BBTOCW`, `ENCODE`, `RESET` only, the remainder registers by `RSCLR`, `RSSTEP`, `RSGEN`, `ENCODE`,
`RESET` only, `CAPR` and `CAPVALID` by `LOOKUP`, `ENCODE`, `RESET` only. -/
def Obligations.CommandsWriteOnlyTheirRegisters : Prop :=
  ∀ (i : Instr) (s t : State), exec i s = .next t →
    (∀ e, ¬ mayWriteBuf i e → t.buf e = s.buf e)
    ∧ ((∀ d, i ≠ .bbtocw d) → i ≠ .encode → i ≠ .reset → t.cw = s.cw)
    ∧ (i ≠ .rsclr → (∀ c, i ≠ .rsstep c) → i ≠ .rsgen → i ≠ .encode → i ≠ .reset → t.rem = s.rem)
    ∧ (i ≠ .lookup → i ≠ .encode → i ≠ .reset → t.capr = s.capr ∧ t.capvalid = s.capvalid)

/-! ### The ports (10_state.md, 20_memory.md) -/

/-- R30 to R32, R34 to R36, R66: a host write of `VERSION`, `MODE`, `PLEN` or a read pointer stores the low bits the
register has, and the register then reads them; a write of `VERSION` or `MODE` also clears `CAPVALID`; nothing else
changes (and the access leaves the host's list). -/
def Obligations.HostWritesStoreTheLowBits : Prop :=
  ∀ (s : State) (v : Word) (rest : List Access),
    (s.cfg.vkeyW ≤ 16 → s.host = .regWrite 32 0x10 v :: rest →
      ∃ t, step s = .next t ∧ t.version.toNat = v.toNat % 2 ^ s.cfg.vkeyW
        ∧ (readOffset t 0x10).toNat = v.toNat % 2 ^ s.cfg.vkeyW
        ∧ t = { s with version := t.version, capvalid := false, host := rest } ∧ SamePayload s t)
    ∧ (s.host = .regWrite 32 0x14 v :: rest →
      ∃ t, step s = .next t ∧ t.mode.toNat = v.toNat % 4 ∧ (readOffset t 0x14).toNat = v.toNat % 4
        ∧ t = { s with mode := t.mode, capvalid := false, host := rest } ∧ SamePayload s t)
    ∧ (s.cfg.payAw ≤ 16 → s.host = .regWrite 32 0x18 v :: rest →
      ∃ t, step s = .next t ∧ t.plen.toNat = v.toNat % 2 ^ s.cfg.payAw
        ∧ (readOffset t 0x18).toNat = v.toNat % 2 ^ s.cfg.payAw ∧ t = { s with plen := t.plen, host := rest })
    ∧ (s.host = .regWrite 32 0x50 v :: rest →
      ∃ t, step s = .next t ∧ t.bbptr.toNat = v.toNat % 2 ^ 18 ∧ (readOffset t 0x50).toNat = v.toNat % 2 ^ 18
        ∧ t = { s with bbptr := t.bbptr, host := rest })
    ∧ (s.host = .regWrite 32 0x5C v :: rest →
      ∃ t, step s = .next t ∧ t.cwptr.toNat = v.toNat % 2 ^ 16 ∧ (readOffset t 0x5C).toNat = v.toNat % 2 ^ 16
        ∧ t = { s with cwptr := t.cwptr, host := rest })
    ∧ (s.host = .regWrite 32 0x68 v :: rest →
      ∃ t, step s = .next t ∧ t.remptr.toNat = v.toNat % 2 ^ 8 ∧ (readOffset t 0x68).toNat = v.toNat % 2 ^ 8
        ∧ t = { s with remptr := t.remptr, host := rest })

/-- R66: a legal read hands the host the data (in the model's own `reply`, log 3) and changes nothing else, and every
register and payload byte then reads as before. -/
def Obligations.ReadsHaveNoSideEffects : Prop :=
  ∀ (s : State) (rest : List Access),
    (∀ off, off % 4 = 0 → off ≤ 0x1FFC → s.host = .regRead 32 off :: rest →
      ∃ t, step s = .next t ∧ t = { s with host := rest, reply := some (.word (readOffset s off)) }
        ∧ (∀ o, readOffset t o = readOffset s o) ∧ SamePayload s t)
    ∧ ∀ a, a < 2 ^ s.cfg.payAw → s.host = .payRead 8 a :: rest →
      ∃ t, step s = .next t ∧ t = { s with host := rest, reply := some (.byte (s.payByte a)) }
        ∧ (∀ o, readOffset t o = readOffset s o) ∧ SamePayload s t

/-- R22, R27 to R33: what `STATUS`, the error registers, `BBLEN[d]` and the capacity registers read: bit by bit for
the registers of several fields. -/
def Obligations.RegisterImages : Prop :=
  ∀ s : State,
    ((readOffset s 0x04).getLsbD 0 = decide (s.errcode ≠ 0) ∧ (readOffset s 0x04).getLsbD 1 = s.capvalid
      ∧ ∀ k, 2 ≤ k → (readOffset s 0x04).getLsbD k = false)
    ∧ (readOffset s 0x08).toNat = s.errcode.toNat ∧ (readOffset s 0x0C).toNat = s.errinfo.toNat
    ∧ (∀ d : BitVec 2, (readOffset s (0x40 + 4 * d.toNat)).toNat = (s.buf d).length % 65536)
    ∧ (readOffset s 0x20).toNat = s.capr.dim.toNat
    ∧ ((readOffset s 0x24).extractLsb' 0 8 = s.capr.miBits ∧ (readOffset s 0x24).extractLsb' 8 4 = s.capr.miWidth
      ∧ (readOffset s 0x24).extractLsb' 12 20 = 0)
    ∧ (readOffset s 0x28).toNat = s.capr.ccw.toNat ∧ (readOffset s 0x2C).toNat = s.capr.dcb.toNat
    ∧ (readOffset s 0x30).toNat = s.capr.ecc.toNat
    ∧ ((readOffset s 0x34).extractLsb' 0 4 = s.capr.padTerm ∧ (readOffset s 0x34).extractLsb' 4 5 = s.capr.padAlign
      ∧ (readOffset s 0x34).extractLsb' 9 5 = s.capr.patLen ∧ (readOffset s 0x34).extractLsb' 14 2 = 0
      ∧ (readOffset s 0x34).extractLsb' 16 16 = s.capr.patBits)

/-- R34 to R36: the read ports. With `BBPTR` naming buffer `d`, bit `i`: `BBBIT` has `INRANGE` and the bit when
`i < len(BB[d])`, and is 0 otherwise; `CWDATA` and `REMDATA` likewise with a codeword in bits 7:0. `CWN`
reads the low 16 bits of the count: where `BBCAP` is unbounded and the count above 65535 that is the model's choice,
log 7 (DEDUCED); `REMN` reads the low 8 bits, its count being at most 255 in every state that meets the invariants. -/
def Obligations.ReadPortsShowTheElement : Prop :=
  ∀ s : State,
    (∀ (d : BitVec 2) (i : Nat), d = s.bbptr.extractLsb' 16 2 → i = (s.bbptr.extractLsb' 0 16).toNat →
      (∀ x, (s.buf d)[i]? = some x → readOffset s 0x54 = 0x80000000 ||| (if x then 1 else 0))
      ∧ ((s.buf d).length ≤ i → readOffset s 0x54 = 0))
    ∧ (∀ c, s.cw[s.cwptr.toNat]? = some c → readOffset s 0x60 = 0x80000000 ||| c.setWidth 32)
    ∧ (s.cwn ≤ s.cwptr.toNat → readOffset s 0x60 = 0)
    ∧ (∀ c, s.rem[s.remptr.toNat]? = some c → readOffset s 0x6C = 0x80000000 ||| c.setWidth 32)
    ∧ (s.remn ≤ s.remptr.toNat → readOffset s 0x6C = 0)
    ∧ (readOffset s 0x58).toNat = s.cwn % 65536 ∧ (readOffset s 0x64).toNat = s.remn % 256

/-- R42 (with R26's read of `CMD`): a reserved offset of the register space reads 0, and a write to a reserved or
read-only offset changes nothing: the step at such a write only takes the access off the host's list (the model's own,
log 2). -/
def Obligations.ReservedAndReadOnlyOffsets : Prop :=
  ∀ (s : State) (off : Nat) (v : Word),
    (IsReservedOffset off → readOffset s off = 0)
    ∧ (IsReservedOffset off ∨ IsReadOnlyOffset off →
        writeOffset s off v = .next s
        ∧ ∀ rest, off % 4 = 0 → off ≤ 0x1FFC → s.host = .regWrite 32 off v :: rest →
            step s = .next { s with host := rest })
    ∧ readOffset s 0x00 = 0

/-- R38, R66, R69: a payload byte the host writes is the byte read at that address from then on, every other address
reads as before, the list stays canonical, and nothing else changes. -/
def Obligations.PayloadReadAfterWrite : Prop :=
  ∀ (s : State) (a : Nat) (v : Byte) (rest : List Access), a < 2 ^ s.cfg.payAw →
    s.host = .payWrite 8 a v :: rest →
    ∃ t, step s = .next t ∧ t.payByte a = v ∧ (∀ b, b ≠ a → t.payByte b = s.payByte b)
      ∧ (memWf s.pay = true → memWf t.pay = true) ∧ t = { s with pay := t.pay, host := rest }

/-! ### Reset and the invariants (R40, R41, R240, R241) -/

/-- R241: after reset no error, no entry, version 0, mode Numeric, payload length 0, empty buffers, no codewords, a
divider of degree 0, pointers 0, for a block built with any parameters. -/
def Obligations.ResetStateRegisters : Prop :=
  ∀ s : State, (s = State.reset ∨ ∃ cfg, s = State.resetWith cfg) →
    s.errcode = 0 ∧ s.errinfo = 0 ∧ s.capvalid = false ∧ s.capr = CapEntry.zero ∧ s.version = 0 ∧ s.mode = 0
    ∧ s.plen = 0 ∧ (∀ d, s.buf d = []) ∧ s.cwn = 0 ∧ s.remn = 0 ∧ s.bbptr = 0 ∧ s.cwptr = 0 ∧ s.remptr = 0

/-- R240, R40: the hardware-reset input puts every register in its reset state and leaves no payload byte written;
the parameters and the rest of the host's list stay (the model's choice, log 11). -/
def Obligations.HardwareResetStep : Prop :=
  ∀ (s : State) (rest : List Access), s.host = .hardReset :: rest →
    ∃ t, step s = .next t ∧ (∀ a, memFind t.pay a = none)
      ∧ t = { State.resetWith s.cfg with payEpoch := s.payEpoch + 1, host := rest }

/-- The spec's own inference R41: the invariants hold after reset, for every parameters in their ranges (R6) with a well-formed table (R7). -/
def Obligations.ResetMeetsTheInvariants : Prop :=
  Inv State.reset ∧ ∀ cfg : Config, configWf cfg = true → Inv (State.resetWith cfg)

/-- The spec's own inference R41: every step that answers a next state keeps the invariants: (a) `CAPVALID` means `CAPR` is the entry of
`VERSION` and `MODE`; (b) to (d) the files fit; (e) the error record is legal; (f) the entry is in range. -/
def Obligations.StepKeepsTheInvariants : Prop := ∀ s t : State, Inv s → step s = .next t → Inv t
end

