-- ==== Sys2Proof/Laws/Gf.lean ====
section
/-! SUPPORT. The lengths of the divider's lists: a generator polynomial of degree `n` has `n + 1` coefficients, a
remainder has `n`, absorbing a codeword keeps the number of registers. -/
namespace Sys2Proof.Machine

@[simp] theorem mulRoot_length (g : List Codeword) (a : Codeword) : (mulRoot g a).length = g.length + 1 := by
  simp [mulRoot]

@[simp] theorem genPoly_length (n : Nat) : (genPoly n).length = n + 1 := by
  induction n with
  | zero => rfl
  | succ n ih => simp [genPoly, ih]

@[simp] theorem xorInto_length : ∀ w g : List Codeword, (xorInto w g).length = w.length
  | [], [] => rfl
  | [], _ :: _ => rfl
  | _ :: _, [] => rfl
  | _ :: w, _ :: g => by simp [xorInto, xorInto_length w g]

/-- `k` steps leave `k` coefficients behind. -/
theorem divSteps_length (g : List Codeword) :
    ∀ (k : Nat) (w : List Codeword), k ≤ w.length → (divSteps g k w).length = w.length - k
  | 0, _, _ => by simp [divSteps]
  | k + 1, [], h => by simp at h
  | k + 1, f :: w, h => by
    simp only [List.length_cons] at h
    unfold divSteps
    by_cases hf : f = 0
    · rw [if_pos hf, divSteps_length g k _ (by simpa using h)]; simp
    · rw [if_neg hf, divSteps_length g k _ (by simp; omega)]; simp

/-- A remainder has exactly `n` coefficients (R168). -/
@[simp] theorem rsRemainder_length (n : Nat) (c : List Codeword) : (rsRemainder n c).length = n := by
  rw [rsRemainder, divSteps_length _ _ _ (by simp)]; simp

/-- Absorbing keeps the number of registers (R170). -/
@[simp] theorem absorb_length (r : List Codeword) (c : Codeword) : (absorb r c).length = r.length := by
  cases r with
  | nil => rfl
  | cons r rs => simp [absorb]

end Sys2Proof.Machine
end

