-- ==== Sys2Proof/Laws/Memory.lean ====
section
/-! SUPPORT. The payload memory's laws: a read after a write, and every operation keeps the canonical form. -/
namespace Sys2Proof.Machine

/-- A byte just written is the byte found there; every other address is as before. -/
theorem memFind_memInsert (m : List Host.Cell) (a b : Nat) (v : Byte) :
    memFind (memInsert m a v) b = if b = a then some v else memFind m b := by
  induction m with
  | nil => simp [memInsert, memFind]
  | cons c m ih =>
    obtain ⟨k, w⟩ := c
    by_cases hlt : a < k
    · simp [memInsert, memFind, hlt]
    · by_cases heq : a = k
      · subst heq
        by_cases hb : b = a <;> simp [memInsert, memFind, hb]
      · simp only [memInsert, hlt, heq, if_false, memFind, ih]
        by_cases hb : b = k
        · subst hb; simp [Ne.symm heq]
        · simp [hb]

/-- A bound below every listed address and below `a` is below every address after a write at `a`. -/
theorem memAbove_memInsert (lo a : Nat) (v : Byte) (h : lo < a) :
    ∀ m, memAbove lo m = true → memAbove lo (memInsert m a v) = true
  | [], _ => by simp [memInsert, memAbove, h]
  | (k, w) :: m, hm => by
    simp only [memAbove, Bool.and_eq_true, decide_eq_true_eq] at hm
    have ih := memAbove_memInsert lo a v h m hm.2
    unfold memInsert
    split_ifs <;> simp_all [memAbove]

/-- A bound below `k`, where `k` is below every listed address, is below every listed address. -/
theorem memAbove_trans (lo k : Nat) (h : lo < k) : ∀ m, memAbove k m = true → memAbove lo m = true
  | [], _ => rfl
  | (j, w) :: m, hm => by
    simp only [memAbove, Bool.and_eq_true, decide_eq_true_eq] at hm ⊢
    exact ⟨by omega, memAbove_trans lo k h m hm.2⟩

/-- A write keeps the canonical form. -/
theorem memWf_memInsert (a : Nat) (v : Byte) : ∀ m, memWf m = true → memWf (memInsert m a v) = true
  | [], _ => rfl
  | (k, w) :: m, hm => by
    simp only [memWf, Bool.and_eq_true] at hm
    have ih := memWf_memInsert a v m hm.2
    unfold memInsert
    split_ifs with h1 h2
    · simp [memWf, memAbove, h1, hm, memAbove_trans a k h1 m hm.1]
    · subst h2; simp [memWf, hm]
    · simp [memWf, ih, memAbove_memInsert k a v (by omega) m hm.1]

/-- A write inside the payload space keeps every listed address inside it. -/
theorem memBelow_memInsert (n a : Nat) (v : Byte) (h : a < n) :
    ∀ m, memBelow n m = true → memBelow n (memInsert m a v) = true
  | [], _ => by simp [memInsert, memBelow, h]
  | (k, w) :: m, hm => by
    simp only [memBelow, Bool.and_eq_true, decide_eq_true_eq] at hm
    have ih := memBelow_memInsert n a v h m hm.2
    unfold memInsert
    split_ifs <;> simp_all [memBelow]

/-- The memory of the reset state is canonical. -/
theorem memWf_reset : memWf State.reset.pay = true := rfl

/-- `payByte` looks at nothing but the payload list and the count of resets. -/
theorem payByte_congr {s t : State} (hp : t.pay = s.pay) (he : t.payEpoch = s.payEpoch) (a : Nat) :
    t.payByte a = s.payByte a := by
  simp [State.payByte, hp, he]

end Sys2Proof.Machine
end

