-- ==== Sys2Proof/Laws/Operands.lean ====
section
/-! SUPPORT. What the pure functions on bit sequences answer: their lengths, and how appending unfolds. -/
namespace Sys2Proof.Machine

@[simp] theorem bits_length (v w : Nat) : (bits v w).length = w := by simp [bits]

@[simp] theorem bits_zero_width (v : Nat) : bits v 0 = [] := rfl

theorem bits_getElem (v w i : Nat) (h : i < (bits v w).length) : (bits v w)[i] = v.testBit (w - 1 - i) := by
  simp [bits]

@[simp] theorem zeroBits_length (k : Nat) : (zeroBits k).length = k := by simp [zeroBits]

@[simp] theorem appendValue_length (b : Bits) (v w : Nat) : (appendValue b v w).length = b.length + w := by
  simp [appendValue]

@[simp] theorem toCodewords_length (b : Bits) : (toCodewords b).length = ceilDiv8 b.length := by
  simp [toCodewords]

@[simp] theorem appendCodewords_length (b : Bits) (c : List Codeword) :
    (appendCodewords b c).length = b.length + 8 * c.length := by
  induction c generalizing b with
  | nil => simp [appendCodewords]
  | cons c cs ih => simp [appendCodewords, ih]; omega

@[simp] theorem padTerminator_length (e : CapEntry) (b : Bits) :
    (padTerminator e b).length = b.length + min e.padTerm.toNat (e.dcb.toNat - b.length) := by
  simp [padTerminator]

@[simp] theorem padPattern_length (e : CapEntry) (b : Bits) :
    (padPattern e b).length = b.length + (e.dcb.toNat - b.length) := by
  simp [padPattern]

/-- The padder never passes the capacity (R150). -/
theorem padBits_length (e : CapEntry) (b : Bits) (h : b.length ≤ e.dcb.toNat) :
    (padBits e b).length = e.dcb.toNat := by
  simp only [padBits, padPattern_length, padAlignment, padTerminator_length, List.length_append, zeroBits_length]
  omega

end Sys2Proof.Machine
end

