-- ==== Sys2Proof/Laws/State.lean ====
section
/-! SUPPORT. One lemma per field per update of the state, each true by `rfl`. -/
namespace Sys2Proof.Machine

variable (s : State)

/-! ### `setBuf` -/

@[simp] theorem State.setBuf_bb (d : BitVec 2) (x : Bits) : (s.setBuf d x).bb = s.bb.set d x := rfl
@[simp] theorem State.setBuf_cw (d : BitVec 2) (x : Bits) : (s.setBuf d x).cw = s.cw := rfl
@[simp] theorem State.setBuf_rem (d : BitVec 2) (x : Bits) : (s.setBuf d x).rem = s.rem := rfl
@[simp] theorem State.setBuf_capr (d : BitVec 2) (x : Bits) : (s.setBuf d x).capr = s.capr := rfl
@[simp] theorem State.setBuf_capvalid (d : BitVec 2) (x : Bits) : (s.setBuf d x).capvalid = s.capvalid := rfl
@[simp] theorem State.setBuf_version (d : BitVec 2) (x : Bits) : (s.setBuf d x).version = s.version := rfl
@[simp] theorem State.setBuf_mode (d : BitVec 2) (x : Bits) : (s.setBuf d x).mode = s.mode := rfl
@[simp] theorem State.setBuf_plen (d : BitVec 2) (x : Bits) : (s.setBuf d x).plen = s.plen := rfl
@[simp] theorem State.setBuf_errcode (d : BitVec 2) (x : Bits) : (s.setBuf d x).errcode = s.errcode := rfl
@[simp] theorem State.setBuf_errinfo (d : BitVec 2) (x : Bits) : (s.setBuf d x).errinfo = s.errinfo := rfl
@[simp] theorem State.setBuf_bbptr (d : BitVec 2) (x : Bits) : (s.setBuf d x).bbptr = s.bbptr := rfl
@[simp] theorem State.setBuf_cwptr (d : BitVec 2) (x : Bits) : (s.setBuf d x).cwptr = s.cwptr := rfl
@[simp] theorem State.setBuf_remptr (d : BitVec 2) (x : Bits) : (s.setBuf d x).remptr = s.remptr := rfl
@[simp] theorem State.setBuf_pay (d : BitVec 2) (x : Bits) : (s.setBuf d x).pay = s.pay := rfl
@[simp] theorem State.setBuf_payEpoch (d : BitVec 2) (x : Bits) : (s.setBuf d x).payEpoch = s.payEpoch := rfl
@[simp] theorem State.setBuf_cfg (d : BitVec 2) (x : Bits) : (s.setBuf d x).cfg = s.cfg := rfl
@[simp] theorem State.setBuf_host (d : BitVec 2) (x : Bits) : (s.setBuf d x).host = s.host := rfl
@[simp] theorem State.setBuf_reply (d : BitVec 2) (x : Bits) : (s.setBuf d x).reply = s.reply := rfl

/-! ### `setCw` -/

@[simp] theorem State.setCw_bb (c : List Codeword) : (s.setCw c).bb = s.bb := rfl
@[simp] theorem State.setCw_cw (c : List Codeword) : (s.setCw c).cw = c := rfl
@[simp] theorem State.setCw_rem (c : List Codeword) : (s.setCw c).rem = s.rem := rfl
@[simp] theorem State.setCw_capr (c : List Codeword) : (s.setCw c).capr = s.capr := rfl
@[simp] theorem State.setCw_capvalid (c : List Codeword) : (s.setCw c).capvalid = s.capvalid := rfl
@[simp] theorem State.setCw_version (c : List Codeword) : (s.setCw c).version = s.version := rfl
@[simp] theorem State.setCw_mode (c : List Codeword) : (s.setCw c).mode = s.mode := rfl
@[simp] theorem State.setCw_plen (c : List Codeword) : (s.setCw c).plen = s.plen := rfl
@[simp] theorem State.setCw_errcode (c : List Codeword) : (s.setCw c).errcode = s.errcode := rfl
@[simp] theorem State.setCw_errinfo (c : List Codeword) : (s.setCw c).errinfo = s.errinfo := rfl
@[simp] theorem State.setCw_bbptr (c : List Codeword) : (s.setCw c).bbptr = s.bbptr := rfl
@[simp] theorem State.setCw_cwptr (c : List Codeword) : (s.setCw c).cwptr = s.cwptr := rfl
@[simp] theorem State.setCw_remptr (c : List Codeword) : (s.setCw c).remptr = s.remptr := rfl
@[simp] theorem State.setCw_pay (c : List Codeword) : (s.setCw c).pay = s.pay := rfl
@[simp] theorem State.setCw_payEpoch (c : List Codeword) : (s.setCw c).payEpoch = s.payEpoch := rfl
@[simp] theorem State.setCw_cfg (c : List Codeword) : (s.setCw c).cfg = s.cfg := rfl
@[simp] theorem State.setCw_host (c : List Codeword) : (s.setCw c).host = s.host := rfl
@[simp] theorem State.setCw_reply (c : List Codeword) : (s.setCw c).reply = s.reply := rfl

/-! ### `setRem` -/

@[simp] theorem State.setRem_bb (r : List Codeword) : (s.setRem r).bb = s.bb := rfl
@[simp] theorem State.setRem_cw (r : List Codeword) : (s.setRem r).cw = s.cw := rfl
@[simp] theorem State.setRem_rem (r : List Codeword) : (s.setRem r).rem = r := rfl
@[simp] theorem State.setRem_capr (r : List Codeword) : (s.setRem r).capr = s.capr := rfl
@[simp] theorem State.setRem_capvalid (r : List Codeword) : (s.setRem r).capvalid = s.capvalid := rfl
@[simp] theorem State.setRem_version (r : List Codeword) : (s.setRem r).version = s.version := rfl
@[simp] theorem State.setRem_mode (r : List Codeword) : (s.setRem r).mode = s.mode := rfl
@[simp] theorem State.setRem_plen (r : List Codeword) : (s.setRem r).plen = s.plen := rfl
@[simp] theorem State.setRem_errcode (r : List Codeword) : (s.setRem r).errcode = s.errcode := rfl
@[simp] theorem State.setRem_errinfo (r : List Codeword) : (s.setRem r).errinfo = s.errinfo := rfl
@[simp] theorem State.setRem_bbptr (r : List Codeword) : (s.setRem r).bbptr = s.bbptr := rfl
@[simp] theorem State.setRem_cwptr (r : List Codeword) : (s.setRem r).cwptr = s.cwptr := rfl
@[simp] theorem State.setRem_remptr (r : List Codeword) : (s.setRem r).remptr = s.remptr := rfl
@[simp] theorem State.setRem_pay (r : List Codeword) : (s.setRem r).pay = s.pay := rfl
@[simp] theorem State.setRem_payEpoch (r : List Codeword) : (s.setRem r).payEpoch = s.payEpoch := rfl
@[simp] theorem State.setRem_cfg (r : List Codeword) : (s.setRem r).cfg = s.cfg := rfl
@[simp] theorem State.setRem_host (r : List Codeword) : (s.setRem r).host = s.host := rfl
@[simp] theorem State.setRem_reply (r : List Codeword) : (s.setRem r).reply = s.reply := rfl

/-! ### `loadEntry` -/

@[simp] theorem State.loadEntry_bb (e : CapEntry) : (s.loadEntry e).bb = s.bb := rfl
@[simp] theorem State.loadEntry_cw (e : CapEntry) : (s.loadEntry e).cw = s.cw := rfl
@[simp] theorem State.loadEntry_rem (e : CapEntry) : (s.loadEntry e).rem = s.rem := rfl
@[simp] theorem State.loadEntry_capr (e : CapEntry) : (s.loadEntry e).capr = e := rfl
@[simp] theorem State.loadEntry_capvalid (e : CapEntry) : (s.loadEntry e).capvalid = true := rfl
@[simp] theorem State.loadEntry_version (e : CapEntry) : (s.loadEntry e).version = s.version := rfl
@[simp] theorem State.loadEntry_mode (e : CapEntry) : (s.loadEntry e).mode = s.mode := rfl
@[simp] theorem State.loadEntry_plen (e : CapEntry) : (s.loadEntry e).plen = s.plen := rfl
@[simp] theorem State.loadEntry_errcode (e : CapEntry) : (s.loadEntry e).errcode = s.errcode := rfl
@[simp] theorem State.loadEntry_errinfo (e : CapEntry) : (s.loadEntry e).errinfo = s.errinfo := rfl
@[simp] theorem State.loadEntry_bbptr (e : CapEntry) : (s.loadEntry e).bbptr = s.bbptr := rfl
@[simp] theorem State.loadEntry_cwptr (e : CapEntry) : (s.loadEntry e).cwptr = s.cwptr := rfl
@[simp] theorem State.loadEntry_remptr (e : CapEntry) : (s.loadEntry e).remptr = s.remptr := rfl
@[simp] theorem State.loadEntry_pay (e : CapEntry) : (s.loadEntry e).pay = s.pay := rfl
@[simp] theorem State.loadEntry_payEpoch (e : CapEntry) : (s.loadEntry e).payEpoch = s.payEpoch := rfl
@[simp] theorem State.loadEntry_cfg (e : CapEntry) : (s.loadEntry e).cfg = s.cfg := rfl
@[simp] theorem State.loadEntry_host (e : CapEntry) : (s.loadEntry e).host = s.host := rfl
@[simp] theorem State.loadEntry_reply (e : CapEntry) : (s.loadEntry e).reply = s.reply := rfl

/-! ### `dropEntry` -/

@[simp] theorem State.dropEntry_bb : (s.dropEntry).bb = s.bb := rfl
@[simp] theorem State.dropEntry_cw : (s.dropEntry).cw = s.cw := rfl
@[simp] theorem State.dropEntry_rem : (s.dropEntry).rem = s.rem := rfl
@[simp] theorem State.dropEntry_capr : (s.dropEntry).capr = s.capr := rfl
@[simp] theorem State.dropEntry_capvalid : (s.dropEntry).capvalid = false := rfl
@[simp] theorem State.dropEntry_version : (s.dropEntry).version = s.version := rfl
@[simp] theorem State.dropEntry_mode : (s.dropEntry).mode = s.mode := rfl
@[simp] theorem State.dropEntry_plen : (s.dropEntry).plen = s.plen := rfl
@[simp] theorem State.dropEntry_errcode : (s.dropEntry).errcode = s.errcode := rfl
@[simp] theorem State.dropEntry_errinfo : (s.dropEntry).errinfo = s.errinfo := rfl
@[simp] theorem State.dropEntry_bbptr : (s.dropEntry).bbptr = s.bbptr := rfl
@[simp] theorem State.dropEntry_cwptr : (s.dropEntry).cwptr = s.cwptr := rfl
@[simp] theorem State.dropEntry_remptr : (s.dropEntry).remptr = s.remptr := rfl
@[simp] theorem State.dropEntry_pay : (s.dropEntry).pay = s.pay := rfl
@[simp] theorem State.dropEntry_payEpoch : (s.dropEntry).payEpoch = s.payEpoch := rfl
@[simp] theorem State.dropEntry_cfg : (s.dropEntry).cfg = s.cfg := rfl
@[simp] theorem State.dropEntry_host : (s.dropEntry).host = s.host := rfl
@[simp] theorem State.dropEntry_reply : (s.dropEntry).reply = s.reply := rfl

/-! ### `writeVersion` -/

@[simp] theorem State.writeVersion_bb (v : Word) : (s.writeVersion v).bb = s.bb := rfl
@[simp] theorem State.writeVersion_cw (v : Word) : (s.writeVersion v).cw = s.cw := rfl
@[simp] theorem State.writeVersion_rem (v : Word) : (s.writeVersion v).rem = s.rem := rfl
@[simp] theorem State.writeVersion_capr (v : Word) : (s.writeVersion v).capr = s.capr := rfl
@[simp] theorem State.writeVersion_capvalid (v : Word) : (s.writeVersion v).capvalid = false := rfl
@[simp] theorem State.writeVersion_version (v : Word) : (s.writeVersion v).version = keepLow s.cfg.vkeyW v := rfl
@[simp] theorem State.writeVersion_mode (v : Word) : (s.writeVersion v).mode = s.mode := rfl
@[simp] theorem State.writeVersion_plen (v : Word) : (s.writeVersion v).plen = s.plen := rfl
@[simp] theorem State.writeVersion_errcode (v : Word) : (s.writeVersion v).errcode = s.errcode := rfl
@[simp] theorem State.writeVersion_errinfo (v : Word) : (s.writeVersion v).errinfo = s.errinfo := rfl
@[simp] theorem State.writeVersion_bbptr (v : Word) : (s.writeVersion v).bbptr = s.bbptr := rfl
@[simp] theorem State.writeVersion_cwptr (v : Word) : (s.writeVersion v).cwptr = s.cwptr := rfl
@[simp] theorem State.writeVersion_remptr (v : Word) : (s.writeVersion v).remptr = s.remptr := rfl
@[simp] theorem State.writeVersion_pay (v : Word) : (s.writeVersion v).pay = s.pay := rfl
@[simp] theorem State.writeVersion_payEpoch (v : Word) : (s.writeVersion v).payEpoch = s.payEpoch := rfl
@[simp] theorem State.writeVersion_cfg (v : Word) : (s.writeVersion v).cfg = s.cfg := rfl
@[simp] theorem State.writeVersion_host (v : Word) : (s.writeVersion v).host = s.host := rfl
@[simp] theorem State.writeVersion_reply (v : Word) : (s.writeVersion v).reply = s.reply := rfl

/-! ### `writeMode` -/

@[simp] theorem State.writeMode_bb (v : Word) : (s.writeMode v).bb = s.bb := rfl
@[simp] theorem State.writeMode_cw (v : Word) : (s.writeMode v).cw = s.cw := rfl
@[simp] theorem State.writeMode_rem (v : Word) : (s.writeMode v).rem = s.rem := rfl
@[simp] theorem State.writeMode_capr (v : Word) : (s.writeMode v).capr = s.capr := rfl
@[simp] theorem State.writeMode_capvalid (v : Word) : (s.writeMode v).capvalid = false := rfl
@[simp] theorem State.writeMode_version (v : Word) : (s.writeMode v).version = s.version := rfl
@[simp] theorem State.writeMode_mode (v : Word) : (s.writeMode v).mode = v.setWidth 2 := rfl
@[simp] theorem State.writeMode_plen (v : Word) : (s.writeMode v).plen = s.plen := rfl
@[simp] theorem State.writeMode_errcode (v : Word) : (s.writeMode v).errcode = s.errcode := rfl
@[simp] theorem State.writeMode_errinfo (v : Word) : (s.writeMode v).errinfo = s.errinfo := rfl
@[simp] theorem State.writeMode_bbptr (v : Word) : (s.writeMode v).bbptr = s.bbptr := rfl
@[simp] theorem State.writeMode_cwptr (v : Word) : (s.writeMode v).cwptr = s.cwptr := rfl
@[simp] theorem State.writeMode_remptr (v : Word) : (s.writeMode v).remptr = s.remptr := rfl
@[simp] theorem State.writeMode_pay (v : Word) : (s.writeMode v).pay = s.pay := rfl
@[simp] theorem State.writeMode_payEpoch (v : Word) : (s.writeMode v).payEpoch = s.payEpoch := rfl
@[simp] theorem State.writeMode_cfg (v : Word) : (s.writeMode v).cfg = s.cfg := rfl
@[simp] theorem State.writeMode_host (v : Word) : (s.writeMode v).host = s.host := rfl
@[simp] theorem State.writeMode_reply (v : Word) : (s.writeMode v).reply = s.reply := rfl

/-! ### `writePlen` -/

@[simp] theorem State.writePlen_bb (v : Word) : (s.writePlen v).bb = s.bb := rfl
@[simp] theorem State.writePlen_cw (v : Word) : (s.writePlen v).cw = s.cw := rfl
@[simp] theorem State.writePlen_rem (v : Word) : (s.writePlen v).rem = s.rem := rfl
@[simp] theorem State.writePlen_capr (v : Word) : (s.writePlen v).capr = s.capr := rfl
@[simp] theorem State.writePlen_capvalid (v : Word) : (s.writePlen v).capvalid = s.capvalid := rfl
@[simp] theorem State.writePlen_version (v : Word) : (s.writePlen v).version = s.version := rfl
@[simp] theorem State.writePlen_mode (v : Word) : (s.writePlen v).mode = s.mode := rfl
@[simp] theorem State.writePlen_plen (v : Word) : (s.writePlen v).plen = keepLow s.cfg.payAw v := rfl
@[simp] theorem State.writePlen_errcode (v : Word) : (s.writePlen v).errcode = s.errcode := rfl
@[simp] theorem State.writePlen_errinfo (v : Word) : (s.writePlen v).errinfo = s.errinfo := rfl
@[simp] theorem State.writePlen_bbptr (v : Word) : (s.writePlen v).bbptr = s.bbptr := rfl
@[simp] theorem State.writePlen_cwptr (v : Word) : (s.writePlen v).cwptr = s.cwptr := rfl
@[simp] theorem State.writePlen_remptr (v : Word) : (s.writePlen v).remptr = s.remptr := rfl
@[simp] theorem State.writePlen_pay (v : Word) : (s.writePlen v).pay = s.pay := rfl
@[simp] theorem State.writePlen_payEpoch (v : Word) : (s.writePlen v).payEpoch = s.payEpoch := rfl
@[simp] theorem State.writePlen_cfg (v : Word) : (s.writePlen v).cfg = s.cfg := rfl
@[simp] theorem State.writePlen_host (v : Word) : (s.writePlen v).host = s.host := rfl
@[simp] theorem State.writePlen_reply (v : Word) : (s.writePlen v).reply = s.reply := rfl

/-! ### `writeBbptr` -/

@[simp] theorem State.writeBbptr_bb (v : Word) : (s.writeBbptr v).bb = s.bb := rfl
@[simp] theorem State.writeBbptr_cw (v : Word) : (s.writeBbptr v).cw = s.cw := rfl
@[simp] theorem State.writeBbptr_rem (v : Word) : (s.writeBbptr v).rem = s.rem := rfl
@[simp] theorem State.writeBbptr_capr (v : Word) : (s.writeBbptr v).capr = s.capr := rfl
@[simp] theorem State.writeBbptr_capvalid (v : Word) : (s.writeBbptr v).capvalid = s.capvalid := rfl
@[simp] theorem State.writeBbptr_version (v : Word) : (s.writeBbptr v).version = s.version := rfl
@[simp] theorem State.writeBbptr_mode (v : Word) : (s.writeBbptr v).mode = s.mode := rfl
@[simp] theorem State.writeBbptr_plen (v : Word) : (s.writeBbptr v).plen = s.plen := rfl
@[simp] theorem State.writeBbptr_errcode (v : Word) : (s.writeBbptr v).errcode = s.errcode := rfl
@[simp] theorem State.writeBbptr_errinfo (v : Word) : (s.writeBbptr v).errinfo = s.errinfo := rfl
@[simp] theorem State.writeBbptr_bbptr (v : Word) : (s.writeBbptr v).bbptr = v.setWidth 18 := rfl
@[simp] theorem State.writeBbptr_cwptr (v : Word) : (s.writeBbptr v).cwptr = s.cwptr := rfl
@[simp] theorem State.writeBbptr_remptr (v : Word) : (s.writeBbptr v).remptr = s.remptr := rfl
@[simp] theorem State.writeBbptr_pay (v : Word) : (s.writeBbptr v).pay = s.pay := rfl
@[simp] theorem State.writeBbptr_payEpoch (v : Word) : (s.writeBbptr v).payEpoch = s.payEpoch := rfl
@[simp] theorem State.writeBbptr_cfg (v : Word) : (s.writeBbptr v).cfg = s.cfg := rfl
@[simp] theorem State.writeBbptr_host (v : Word) : (s.writeBbptr v).host = s.host := rfl
@[simp] theorem State.writeBbptr_reply (v : Word) : (s.writeBbptr v).reply = s.reply := rfl

/-! ### `writeCwptr` -/

@[simp] theorem State.writeCwptr_bb (v : Word) : (s.writeCwptr v).bb = s.bb := rfl
@[simp] theorem State.writeCwptr_cw (v : Word) : (s.writeCwptr v).cw = s.cw := rfl
@[simp] theorem State.writeCwptr_rem (v : Word) : (s.writeCwptr v).rem = s.rem := rfl
@[simp] theorem State.writeCwptr_capr (v : Word) : (s.writeCwptr v).capr = s.capr := rfl
@[simp] theorem State.writeCwptr_capvalid (v : Word) : (s.writeCwptr v).capvalid = s.capvalid := rfl
@[simp] theorem State.writeCwptr_version (v : Word) : (s.writeCwptr v).version = s.version := rfl
@[simp] theorem State.writeCwptr_mode (v : Word) : (s.writeCwptr v).mode = s.mode := rfl
@[simp] theorem State.writeCwptr_plen (v : Word) : (s.writeCwptr v).plen = s.plen := rfl
@[simp] theorem State.writeCwptr_errcode (v : Word) : (s.writeCwptr v).errcode = s.errcode := rfl
@[simp] theorem State.writeCwptr_errinfo (v : Word) : (s.writeCwptr v).errinfo = s.errinfo := rfl
@[simp] theorem State.writeCwptr_bbptr (v : Word) : (s.writeCwptr v).bbptr = s.bbptr := rfl
@[simp] theorem State.writeCwptr_cwptr (v : Word) : (s.writeCwptr v).cwptr = v.setWidth 16 := rfl
@[simp] theorem State.writeCwptr_remptr (v : Word) : (s.writeCwptr v).remptr = s.remptr := rfl
@[simp] theorem State.writeCwptr_pay (v : Word) : (s.writeCwptr v).pay = s.pay := rfl
@[simp] theorem State.writeCwptr_payEpoch (v : Word) : (s.writeCwptr v).payEpoch = s.payEpoch := rfl
@[simp] theorem State.writeCwptr_cfg (v : Word) : (s.writeCwptr v).cfg = s.cfg := rfl
@[simp] theorem State.writeCwptr_host (v : Word) : (s.writeCwptr v).host = s.host := rfl
@[simp] theorem State.writeCwptr_reply (v : Word) : (s.writeCwptr v).reply = s.reply := rfl

/-! ### `writeRemptr` -/

@[simp] theorem State.writeRemptr_bb (v : Word) : (s.writeRemptr v).bb = s.bb := rfl
@[simp] theorem State.writeRemptr_cw (v : Word) : (s.writeRemptr v).cw = s.cw := rfl
@[simp] theorem State.writeRemptr_rem (v : Word) : (s.writeRemptr v).rem = s.rem := rfl
@[simp] theorem State.writeRemptr_capr (v : Word) : (s.writeRemptr v).capr = s.capr := rfl
@[simp] theorem State.writeRemptr_capvalid (v : Word) : (s.writeRemptr v).capvalid = s.capvalid := rfl
@[simp] theorem State.writeRemptr_version (v : Word) : (s.writeRemptr v).version = s.version := rfl
@[simp] theorem State.writeRemptr_mode (v : Word) : (s.writeRemptr v).mode = s.mode := rfl
@[simp] theorem State.writeRemptr_plen (v : Word) : (s.writeRemptr v).plen = s.plen := rfl
@[simp] theorem State.writeRemptr_errcode (v : Word) : (s.writeRemptr v).errcode = s.errcode := rfl
@[simp] theorem State.writeRemptr_errinfo (v : Word) : (s.writeRemptr v).errinfo = s.errinfo := rfl
@[simp] theorem State.writeRemptr_bbptr (v : Word) : (s.writeRemptr v).bbptr = s.bbptr := rfl
@[simp] theorem State.writeRemptr_cwptr (v : Word) : (s.writeRemptr v).cwptr = s.cwptr := rfl
@[simp] theorem State.writeRemptr_remptr (v : Word) : (s.writeRemptr v).remptr = v.setWidth 8 := rfl
@[simp] theorem State.writeRemptr_pay (v : Word) : (s.writeRemptr v).pay = s.pay := rfl
@[simp] theorem State.writeRemptr_payEpoch (v : Word) : (s.writeRemptr v).payEpoch = s.payEpoch := rfl
@[simp] theorem State.writeRemptr_cfg (v : Word) : (s.writeRemptr v).cfg = s.cfg := rfl
@[simp] theorem State.writeRemptr_host (v : Word) : (s.writeRemptr v).host = s.host := rfl
@[simp] theorem State.writeRemptr_reply (v : Word) : (s.writeRemptr v).reply = s.reply := rfl

/-! ### `setHost` -/

@[simp] theorem State.setHost_bb (h : List Access) : (s.setHost h).bb = s.bb := rfl
@[simp] theorem State.setHost_cw (h : List Access) : (s.setHost h).cw = s.cw := rfl
@[simp] theorem State.setHost_rem (h : List Access) : (s.setHost h).rem = s.rem := rfl
@[simp] theorem State.setHost_capr (h : List Access) : (s.setHost h).capr = s.capr := rfl
@[simp] theorem State.setHost_capvalid (h : List Access) : (s.setHost h).capvalid = s.capvalid := rfl
@[simp] theorem State.setHost_version (h : List Access) : (s.setHost h).version = s.version := rfl
@[simp] theorem State.setHost_mode (h : List Access) : (s.setHost h).mode = s.mode := rfl
@[simp] theorem State.setHost_plen (h : List Access) : (s.setHost h).plen = s.plen := rfl
@[simp] theorem State.setHost_errcode (h : List Access) : (s.setHost h).errcode = s.errcode := rfl
@[simp] theorem State.setHost_errinfo (h : List Access) : (s.setHost h).errinfo = s.errinfo := rfl
@[simp] theorem State.setHost_bbptr (h : List Access) : (s.setHost h).bbptr = s.bbptr := rfl
@[simp] theorem State.setHost_cwptr (h : List Access) : (s.setHost h).cwptr = s.cwptr := rfl
@[simp] theorem State.setHost_remptr (h : List Access) : (s.setHost h).remptr = s.remptr := rfl
@[simp] theorem State.setHost_pay (h : List Access) : (s.setHost h).pay = s.pay := rfl
@[simp] theorem State.setHost_payEpoch (h : List Access) : (s.setHost h).payEpoch = s.payEpoch := rfl
@[simp] theorem State.setHost_cfg (h : List Access) : (s.setHost h).cfg = s.cfg := rfl
@[simp] theorem State.setHost_host (h : List Access) : (s.setHost h).host = h := rfl
@[simp] theorem State.setHost_reply (h : List Access) : (s.setHost h).reply = s.reply := rfl

/-! ### `setReply` -/

@[simp] theorem State.setReply_bb (r : Reply) : (s.setReply r).bb = s.bb := rfl
@[simp] theorem State.setReply_cw (r : Reply) : (s.setReply r).cw = s.cw := rfl
@[simp] theorem State.setReply_rem (r : Reply) : (s.setReply r).rem = s.rem := rfl
@[simp] theorem State.setReply_capr (r : Reply) : (s.setReply r).capr = s.capr := rfl
@[simp] theorem State.setReply_capvalid (r : Reply) : (s.setReply r).capvalid = s.capvalid := rfl
@[simp] theorem State.setReply_version (r : Reply) : (s.setReply r).version = s.version := rfl
@[simp] theorem State.setReply_mode (r : Reply) : (s.setReply r).mode = s.mode := rfl
@[simp] theorem State.setReply_plen (r : Reply) : (s.setReply r).plen = s.plen := rfl
@[simp] theorem State.setReply_errcode (r : Reply) : (s.setReply r).errcode = s.errcode := rfl
@[simp] theorem State.setReply_errinfo (r : Reply) : (s.setReply r).errinfo = s.errinfo := rfl
@[simp] theorem State.setReply_bbptr (r : Reply) : (s.setReply r).bbptr = s.bbptr := rfl
@[simp] theorem State.setReply_cwptr (r : Reply) : (s.setReply r).cwptr = s.cwptr := rfl
@[simp] theorem State.setReply_remptr (r : Reply) : (s.setReply r).remptr = s.remptr := rfl
@[simp] theorem State.setReply_pay (r : Reply) : (s.setReply r).pay = s.pay := rfl
@[simp] theorem State.setReply_payEpoch (r : Reply) : (s.setReply r).payEpoch = s.payEpoch := rfl
@[simp] theorem State.setReply_cfg (r : Reply) : (s.setReply r).cfg = s.cfg := rfl
@[simp] theorem State.setReply_host (r : Reply) : (s.setReply r).host = s.host := rfl
@[simp] theorem State.setReply_reply (r : Reply) : (s.setReply r).reply = some r := rfl

/-! ### `writePay` -/

@[simp] theorem State.writePay_bb (a : Nat) (v : Byte) : (s.writePay a v).bb = s.bb := rfl
@[simp] theorem State.writePay_cw (a : Nat) (v : Byte) : (s.writePay a v).cw = s.cw := rfl
@[simp] theorem State.writePay_rem (a : Nat) (v : Byte) : (s.writePay a v).rem = s.rem := rfl
@[simp] theorem State.writePay_capr (a : Nat) (v : Byte) : (s.writePay a v).capr = s.capr := rfl
@[simp] theorem State.writePay_capvalid (a : Nat) (v : Byte) : (s.writePay a v).capvalid = s.capvalid := rfl
@[simp] theorem State.writePay_version (a : Nat) (v : Byte) : (s.writePay a v).version = s.version := rfl
@[simp] theorem State.writePay_mode (a : Nat) (v : Byte) : (s.writePay a v).mode = s.mode := rfl
@[simp] theorem State.writePay_plen (a : Nat) (v : Byte) : (s.writePay a v).plen = s.plen := rfl
@[simp] theorem State.writePay_errcode (a : Nat) (v : Byte) : (s.writePay a v).errcode = s.errcode := rfl
@[simp] theorem State.writePay_errinfo (a : Nat) (v : Byte) : (s.writePay a v).errinfo = s.errinfo := rfl
@[simp] theorem State.writePay_bbptr (a : Nat) (v : Byte) : (s.writePay a v).bbptr = s.bbptr := rfl
@[simp] theorem State.writePay_cwptr (a : Nat) (v : Byte) : (s.writePay a v).cwptr = s.cwptr := rfl
@[simp] theorem State.writePay_remptr (a : Nat) (v : Byte) : (s.writePay a v).remptr = s.remptr := rfl
@[simp] theorem State.writePay_pay (a : Nat) (v : Byte) : (s.writePay a v).pay = memInsert s.pay a v := rfl
@[simp] theorem State.writePay_payEpoch (a : Nat) (v : Byte) : (s.writePay a v).payEpoch = s.payEpoch := rfl
@[simp] theorem State.writePay_cfg (a : Nat) (v : Byte) : (s.writePay a v).cfg = s.cfg := rfl
@[simp] theorem State.writePay_host (a : Nat) (v : Byte) : (s.writePay a v).host = s.host := rfl
@[simp] theorem State.writePay_reply (a : Nat) (v : Byte) : (s.writePay a v).reply = s.reply := rfl

/-! ### `raise` -/

@[simp] theorem State.raise_bb (e : ErrKind) (i : BitVec 16) : (s.raise e i).bb = s.bb := rfl
@[simp] theorem State.raise_cw (e : ErrKind) (i : BitVec 16) : (s.raise e i).cw = s.cw := rfl
@[simp] theorem State.raise_rem (e : ErrKind) (i : BitVec 16) : (s.raise e i).rem = s.rem := rfl
@[simp] theorem State.raise_capr (e : ErrKind) (i : BitVec 16) : (s.raise e i).capr = s.capr := rfl
@[simp] theorem State.raise_capvalid (e : ErrKind) (i : BitVec 16) : (s.raise e i).capvalid = s.capvalid := rfl
@[simp] theorem State.raise_version (e : ErrKind) (i : BitVec 16) : (s.raise e i).version = s.version := rfl
@[simp] theorem State.raise_mode (e : ErrKind) (i : BitVec 16) : (s.raise e i).mode = s.mode := rfl
@[simp] theorem State.raise_plen (e : ErrKind) (i : BitVec 16) : (s.raise e i).plen = s.plen := rfl
@[simp] theorem State.raise_errcode (e : ErrKind) (i : BitVec 16) : (s.raise e i).errcode = errCode e := rfl
@[simp] theorem State.raise_errinfo (e : ErrKind) (i : BitVec 16) : (s.raise e i).errinfo = i := rfl
@[simp] theorem State.raise_bbptr (e : ErrKind) (i : BitVec 16) : (s.raise e i).bbptr = s.bbptr := rfl
@[simp] theorem State.raise_cwptr (e : ErrKind) (i : BitVec 16) : (s.raise e i).cwptr = s.cwptr := rfl
@[simp] theorem State.raise_remptr (e : ErrKind) (i : BitVec 16) : (s.raise e i).remptr = s.remptr := rfl
@[simp] theorem State.raise_pay (e : ErrKind) (i : BitVec 16) : (s.raise e i).pay = s.pay := rfl
@[simp] theorem State.raise_payEpoch (e : ErrKind) (i : BitVec 16) : (s.raise e i).payEpoch = s.payEpoch := rfl
@[simp] theorem State.raise_cfg (e : ErrKind) (i : BitVec 16) : (s.raise e i).cfg = s.cfg := rfl
@[simp] theorem State.raise_host (e : ErrKind) (i : BitVec 16) : (s.raise e i).host = s.host := rfl
@[simp] theorem State.raise_reply (e : ErrKind) (i : BitVec 16) : (s.raise e i).reply = s.reply := rfl

/-! ### `clearErr` -/

@[simp] theorem State.clearErr_bb : (s.clearErr).bb = s.bb := rfl
@[simp] theorem State.clearErr_cw : (s.clearErr).cw = s.cw := rfl
@[simp] theorem State.clearErr_rem : (s.clearErr).rem = s.rem := rfl
@[simp] theorem State.clearErr_capr : (s.clearErr).capr = s.capr := rfl
@[simp] theorem State.clearErr_capvalid : (s.clearErr).capvalid = s.capvalid := rfl
@[simp] theorem State.clearErr_version : (s.clearErr).version = s.version := rfl
@[simp] theorem State.clearErr_mode : (s.clearErr).mode = s.mode := rfl
@[simp] theorem State.clearErr_plen : (s.clearErr).plen = s.plen := rfl
@[simp] theorem State.clearErr_errcode : (s.clearErr).errcode = 0 := rfl
@[simp] theorem State.clearErr_errinfo : (s.clearErr).errinfo = 0 := rfl
@[simp] theorem State.clearErr_bbptr : (s.clearErr).bbptr = s.bbptr := rfl
@[simp] theorem State.clearErr_cwptr : (s.clearErr).cwptr = s.cwptr := rfl
@[simp] theorem State.clearErr_remptr : (s.clearErr).remptr = s.remptr := rfl
@[simp] theorem State.clearErr_pay : (s.clearErr).pay = s.pay := rfl
@[simp] theorem State.clearErr_payEpoch : (s.clearErr).payEpoch = s.payEpoch := rfl
@[simp] theorem State.clearErr_cfg : (s.clearErr).cfg = s.cfg := rfl
@[simp] theorem State.clearErr_host : (s.clearErr).host = s.host := rfl
@[simp] theorem State.clearErr_reply : (s.clearErr).reply = s.reply := rfl

/-! ### the two resets -/

@[simp] theorem State.resetCommand_bb : s.resetCommand.bb = Bufs.empty := rfl
@[simp] theorem State.resetCommand_cw : s.resetCommand.cw = [] := rfl
@[simp] theorem State.resetCommand_rem : s.resetCommand.rem = [] := rfl
@[simp] theorem State.resetCommand_capr : s.resetCommand.capr = CapEntry.zero := rfl
@[simp] theorem State.resetCommand_capvalid : s.resetCommand.capvalid = false := rfl
@[simp] theorem State.resetCommand_version : s.resetCommand.version = 0 := rfl
@[simp] theorem State.resetCommand_mode : s.resetCommand.mode = 0 := rfl
@[simp] theorem State.resetCommand_plen : s.resetCommand.plen = 0 := rfl
@[simp] theorem State.resetCommand_errcode : s.resetCommand.errcode = 0 := rfl
@[simp] theorem State.resetCommand_errinfo : s.resetCommand.errinfo = 0 := rfl
@[simp] theorem State.resetCommand_bbptr : s.resetCommand.bbptr = 0 := rfl
@[simp] theorem State.resetCommand_cwptr : s.resetCommand.cwptr = 0 := rfl
@[simp] theorem State.resetCommand_remptr : s.resetCommand.remptr = 0 := rfl
@[simp] theorem State.resetCommand_pay : s.resetCommand.pay = s.pay := rfl
@[simp] theorem State.resetCommand_payEpoch : s.resetCommand.payEpoch = s.payEpoch := rfl
@[simp] theorem State.resetCommand_cfg : s.resetCommand.cfg = s.cfg := rfl
@[simp] theorem State.resetCommand_host : s.resetCommand.host = s.host := rfl
@[simp] theorem State.resetCommand_reply : s.resetCommand.reply = s.reply := rfl

@[simp] theorem State.hardReset_bb : s.hardReset.bb = Bufs.empty := rfl
@[simp] theorem State.hardReset_cw : s.hardReset.cw = [] := rfl
@[simp] theorem State.hardReset_rem : s.hardReset.rem = [] := rfl
@[simp] theorem State.hardReset_capr : s.hardReset.capr = CapEntry.zero := rfl
@[simp] theorem State.hardReset_capvalid : s.hardReset.capvalid = false := rfl
@[simp] theorem State.hardReset_version : s.hardReset.version = 0 := rfl
@[simp] theorem State.hardReset_mode : s.hardReset.mode = 0 := rfl
@[simp] theorem State.hardReset_plen : s.hardReset.plen = 0 := rfl
@[simp] theorem State.hardReset_errcode : s.hardReset.errcode = 0 := rfl
@[simp] theorem State.hardReset_errinfo : s.hardReset.errinfo = 0 := rfl
@[simp] theorem State.hardReset_bbptr : s.hardReset.bbptr = 0 := rfl
@[simp] theorem State.hardReset_cwptr : s.hardReset.cwptr = 0 := rfl
@[simp] theorem State.hardReset_remptr : s.hardReset.remptr = 0 := rfl
@[simp] theorem State.hardReset_pay : s.hardReset.pay = [] := rfl
@[simp] theorem State.hardReset_payEpoch : s.hardReset.payEpoch = s.payEpoch + 1 := rfl
@[simp] theorem State.hardReset_cfg : s.hardReset.cfg = s.cfg := rfl
@[simp] theorem State.hardReset_host : s.hardReset.host = s.host := rfl
@[simp] theorem State.hardReset_reply : s.hardReset.reply = none := rfl

end Sys2Proof.Machine
end

