-- ==== Sys2Proof/Laws/Ops.lean ====
section
/-! SUPPORT. One lemma per shared operation: buffers by index, the entry test, storing a buffer, the ports. -/
namespace Sys2Proof.Machine

/-- Reading a buffer after writing one. -/
theorem Bufs.get_set (b : Bufs) (d e : BitVec 2) (x : Bits) :
    (b.set d x).get e = if e = d then x else b.get e := by
  have hd : d = 0 ∨ d = 1 ∨ d = 2 ∨ d = 3 := by revert d; decide
  have he : e = 0 ∨ e = 1 ∨ e = 2 ∨ e = 3 := by revert e; decide
  rcases hd with rfl | rfl | rfl | rfl <;> rcases he with rfl | rfl | rfl | rfl <;> rfl

@[simp] theorem Bufs.get_empty (d : BitVec 2) : Bufs.empty.get d = [] := by
  have hd : d = 0 ∨ d = 1 ∨ d = 2 ∨ d = 3 := by revert d; decide
  rcases hd with rfl | rfl | rfl | rfl <;> rfl

/-- `BB[e]` after `BB[d] <- x`. -/
theorem State.buf_setBuf (s : State) (d e : BitVec 2) (x : Bits) :
    (s.setBuf d x).buf e = if e = d then x else s.buf e := Bufs.get_set s.bb d e x

/-- A buffer looks at nothing but the buffers. -/
theorem State.buf_congr {s t : State} (h : t.bb = s.bb) (d : BitVec 2) : t.buf d = s.buf d := by
  simp [State.buf, h]

/-- `overCap` is the failure of `Fits`. -/
theorem overCap_eq_false_iff (cfg : Config) (n : Nat) : overCap cfg n = false ↔ Fits cfg n := by
  unfold overCap Fits
  cases cfg.bbcap <;> simp

/-- A command's one next state: `body` when no error is recorded, the old state otherwise (R222). -/
theorem command_eq (s body : State) : command s body = .next (if s.errcode = 0 then body else s) := rfl

theorem command_clear {s : State} (h : s.errcode = 0) (body : State) : command s body = .next body := by
  rw [command_eq, if_pos h]

theorem command_error {s : State} (h : s.errcode ≠ 0) (body : State) : command s body = .next s := by
  rw [command_eq, if_neg h]

/-- Everything a command behind the entry test can do. -/
theorem command_inv {s body t : State} (h : command s body = .next t) :
    (s.errcode = 0 ∧ t = body) ∨ (s.errcode ≠ 0 ∧ t = s) := by
  by_cases he : s.errcode = 0
  · rw [command_clear he] at h; exact .inl ⟨he, by injection h with h; exact h.symm⟩
  · rw [command_error he] at h; exact .inr ⟨he, by injection h with h; exact h.symm⟩

/-- An illegal word raises `IllegalCommand`, or is ignored (R85, R222). -/
theorem illegalCommand_eq (s : State) :
    illegalCommand s = .next (if s.errcode = 0 then s.raise .illegalCommand 0 else s) := rfl

/-- Storing a buffer that fits. -/
theorem storeBuf_fits {s : State} {x : Bits} (h : Fits s.cfg x.length) (d : BitVec 2) :
    s.storeBuf d x = s.setBuf d x := by
  simp [State.storeBuf, (overCap_eq_false_iff _ _).2 h]

/-- Storing a buffer that does not fit. -/
theorem storeBuf_over {s : State} {x : Bits} (h : ¬ Fits s.cfg x.length) (d : BitVec 2) :
    s.storeBuf d x = s.raise .bufferOverflow 0 := by
  have : overCap s.cfg x.length = true := by
    cases hb : overCap s.cfg x.length
    · exact absurd ((overCap_eq_false_iff _ _).1 hb) h
    · rfl
  simp [State.storeBuf, this]

/-- Every command answers a next state, in every state: no meaning stops. -/
theorem exec_total (i : Instr) (s : State) : ∃ t, exec i s = .next t := by
  cases i with
  | bbappv d w imm =>
    simp only [exec, execBbappv]
    split <;> exact ⟨_, rfl⟩
  | _ => exact ⟨_, rfl⟩

/-- A legal register access runs. -/
theorem regAccess_legal {off : Nat} (ha : off % 4 = 0) (hr : off ≤ 0x1FFC) (k : Host.Outcome State Fault Refusal) :
    regAccess 32 off k = k := by
  unfold regAccess
  rw [if_neg (by simp), if_neg (by omega), if_neg (by omega)]

/-- A legal payload access runs. -/
theorem payAccess_legal {cfg : Config} {a : Nat} (h : a < 2 ^ cfg.payAw) (k : Host.Outcome State Fault Refusal) :
    payAccess cfg 8 a k = k := by
  unfold payAccess
  rw [if_neg (by simp), if_neg (by omega)]

/-- A register access that answers a next state was legal, and its continuation answered it. -/
theorem regAccess_next {width off : Nat} {k : Host.Outcome State Fault Refusal} {t : State}
    (h : regAccess width off k = .next t) : width = 32 ∧ off % 4 = 0 ∧ off ≤ 0x1FFC ∧ k = .next t := by
  unfold regAccess at h
  split_ifs at h with h1 h2 h3
  exact ⟨by omega, by omega, by omega, h⟩

/-- A payload access that answers a next state was legal, and its continuation answered it. -/
theorem payAccess_next {cfg : Config} {width a : Nat} {k : Host.Outcome State Fault Refusal} {t : State}
    (h : payAccess cfg width a k = .next t) : width = 8 ∧ a < 2 ^ cfg.payAw ∧ k = .next t := by
  unfold payAccess at h
  split_ifs at h with h1 h2
  exact ⟨by omega, by omega, h⟩

/-- The step takes the host's next access off its list and performs it. -/
theorem step_cons {s : State} {a : Access} {rest : List Access} (h : s.host = a :: rest) :
    step s = perform a (s.setHost rest) := by
  simp [step, stepHost, h]

/-- With no access pending there is no step (R13). -/
theorem step_nil {s : State} (h : s.host = []) : step s = .refused .noAccess := by
  simp [step, stepHost, h]

end Sys2Proof.Machine
end

