-- ==== Sys2Proof/Laws/PerInstr.lean ====
section
/-! SUPPORT. The per-instruction law `RowAccepts`: the word the encoder gives a command is one its own row of the
opcode map accepts (R84), whatever the operands. -/
namespace Sys2Proof.Laws.RowAccepts

/-- `W AND mask = match` for the encoder's word and the instruction's own row (R84). -/
def Statement (i : Instr) : Prop := i.row.accepts (encode i) = true

theorem nop : Statement .nop := by unfold Statement; decide
theorem bbclr (d : BitVec 2) : Statement (.bbclr d) := by revert d; unfold Statement; decide
theorem bbappv (d : BitVec 2) (w : BitVec 5) (imm : BitVec 16) : Statement (.bbappv d w imm) := by
  have h : encode (.bbappv d w imm) &&& 0xF3E00000 = 0x20000000 := by
    apply BitVec.eq_of_getLsbD_eq
    intro k hk
    interval_cases k <;> simp [encode, packDV, field]
  simpa [Statement, OpcodeRow.accepts, Instr.row] using h
theorem bbcat (d s : BitVec 2) : Statement (.bbcat d s) := by revert d s; unfold Statement; decide
theorem bbtocw (s : BitVec 2) : Statement (.bbtocw s) := by revert s; unfold Statement; decide
theorem lookup : Statement .lookup := by unfold Statement; decide
theorem numenc (d : BitVec 2) : Statement (.numenc d) := by revert d; unfold Statement; decide
theorem pad (d : BitVec 2) : Statement (.pad d) := by revert d; unfold Statement; decide
theorem rsclr : Statement .rsclr := by unfold Statement; decide
theorem rsstep (c : Codeword) : Statement (.rsstep c) := by
  have h : encode (.rsstep c) &&& 0xFFFFFF00 = 0x90000000 := by
    apply BitVec.eq_of_getLsbD_eq
    intro k hk
    interval_cases k <;> simp [encode, packI8, field]
  simpa [Statement, OpcodeRow.accepts, Instr.row] using h
theorem rsgen : Statement .rsgen := by unfold Statement; decide
theorem bbappcw (d : BitVec 2) : Statement (.bbappcw d) := by revert d; unfold Statement; decide
theorem encode : Statement .encode := by unfold Statement; decide
theorem clrerr : Statement .clrerr := by unfold Statement; decide
theorem reservedE (low : BitVec 28) : Statement (.reservedE low) := by
  have h : Sys2Proof.encode (.reservedE low) &&& 0xF0000000 = 0xE0000000 := by
    apply BitVec.eq_of_getLsbD_eq
    intro k hk
    interval_cases k <;> simp [Sys2Proof.encode, field]
  simpa [Statement, OpcodeRow.accepts, Instr.row] using h
theorem reset : Statement .reset := by unfold Statement; decide

end Sys2Proof.Laws.RowAccepts
end

