-- ==== Sys2Proof/Tests/Slice0.lean ====
section
/-! SUPPORT. Tests: the WellFormed smoke test, decoding of words written out from R81, one step per command against the
spec's own vectors (95_test_vectors.md, named V<n>), and a witness for every statement with hypotheses. -/
namespace Sys2Proof.Tests

open Sys2Proof Sys2Proof.Machine

-- The tests are elaborated one after another: many closed evaluations at once start more threads than the memory limit allows.
set_option Elab.async false

/-! ### Small states -/

/-- The next state, where there is one. -/
def nextOf : Host.Outcome State Fault Refusal → Option State
  | .next s => some s
  | .fault _ => none
  | .refused _ => none

/-- The reset state with `TESTCFG`. -/
def fresh : State := State.resetWith testConfig

/-- The low `w` bits of `n`, first bit first. -/
def b (n : Nat) (w : Nat) : Bits := bits n w

/-- `fresh` with `VERSION`, `MODE` and a payload. -/
def selected (v : BitVec 16) (m : BitVec 2) (p : List Byte) : State :=
  { fresh with version := v, mode := m, plen := BitVec.ofNat 16 p.length,
               pay := p.zipIdx.map (fun c => (c.2, c.1)) }

/-- `selected` after a `LOOKUP`. -/
def loaded (v : BitVec 16) (m : BitVec 2) (p : List Byte) : State :=
  (nextOf (exec .lookup (selected v m p))).getD fresh

/-- The digits `12345`. -/
def p12345 : List Byte := [0x31, 0x32, 0x33, 0x34, 0x35]

/-- `01234567`. -/
def p01234567 : List Byte := [0x30, 0x31, 0x32, 0x33, 0x34, 0x35, 0x36, 0x37]

/-- `12a`. -/
def p12a : List Byte := [0x31, 0x32, 0x61]

/-- Key 1 loaded, `BB[0]` the 20 bits of V31h, the divider holding `14 60`. -/
def busy : State :=
  { (loaded 1 0 p12345).setBuf 0 (b 0xA3DAD 20) with rem := [0x14, 0x60], cw := [0xA3, 0xDA, 0x0D] }

/-- The same with `BBCAP = 20`, so that nothing more fits `BB[0]`. -/
def full : State := { busy with cfg := { testConfig with bbcap := some 20 } }

/-- The same with `BBCAP = 4`. -/
def tiny : State := { loaded 1 0 p12345 with cfg := { testConfig with bbcap := some 4 } }

/-- An error is recorded. -/
def failed : State := { busy with errcode := 4 }

/-! ### WellFormed (R82) -/

theorem test_wf_refuses_width_17 : Instr.wf (.bbappv 0 17 0) = false := by decide
theorem test_wf_refuses_width_31 : Instr.wf (.bbappv 3 31 0xFFFF) = false := by decide
theorem test_wf_accepts_width_16 : Instr.wf (.bbappv 0 16 0xABCD) = true := by decide
theorem test_configWf_reference : configWf referenceConfig = true := by decide
theorem test_configWf_test : configWf testConfig = true := by decide
theorem test_configWf_refuses_vkey_0 : configWf { testConfig with vkeyW := 0 } = false := by decide
theorem test_configWf_refuses_bbcap_0 : configWf { testConfig with bbcap := some 0 } = false := by decide
theorem test_configWf_refuses_pay_17 : configWf { testConfig with payAw := 17 } = false := by decide
theorem test_configWf_refuses_key_16 : configWf { testConfig with cap := [⟨16, 0, zeroFillEntry 0 0 0 3 8 0⟩] } = false := by
  decide
theorem test_configWf_refuses_pair_twice : configWf { testConfig with cap := refCap ++ refCap } = false := by decide
theorem test_entryWf_refuses_miWidth_9 : entryWf (zeroFillEntry 0 9 0 3 8 0) = false := by decide
theorem test_entryWf_refuses_miBits : entryWf (zeroFillEntry 0 1 2 3 8 0) = false := by decide
theorem test_entryWf_refuses_ccw_17 : entryWf (zeroFillEntry 0 0 0 17 8 0) = false := by decide
theorem test_entryWf_refuses_padAlign_0 : entryWf { zeroFillEntry 0 0 0 3 8 0 with padAlign := 0 } = false := by decide
theorem test_entryWf_refuses_padAlign_17 : entryWf { zeroFillEntry 0 0 0 3 8 0 with padAlign := 17 } = false := by decide
theorem test_entryWf_refuses_patLen_0 : entryWf { zeroFillEntry 0 0 0 3 8 0 with patLen := 0 } = false := by decide
theorem test_entryWf_refuses_patLen_17 : entryWf { zeroFillEntry 0 0 0 3 8 0 with patLen := 17 } = false := by decide
theorem test_entryWf_refuses_patBits : entryWf { zeroFillEntry 0 0 0 3 8 0 with patBits := 2 } = false := by decide

/-! ### Decoding words written out bit by bit from R81 -/

theorem test_decode_nop : decode 0b0000_0000_0000_0000_0000_0000_0000_0000 = .ok .nop := by decide
theorem test_decode_bbclr : decode 0b0001_1000_0000_0000_0000_0000_0000_0000 = .ok (.bbclr 2) := by decide
theorem test_decode_bbappv : decode 0b0010_0100_0000_1010_0000_0000_0111_1011 = .ok (.bbappv 1 10 123) := by decide
theorem test_decode_bbcat : decode 0b0011_1001_0000_0000_0000_0000_0000_0000 = .ok (.bbcat 2 1) := by decide
theorem test_decode_bbtocw : decode 0b0100_0011_0000_0000_0000_0000_0000_0000 = .ok (.bbtocw 3) := by decide
theorem test_decode_lookup : decode 0b0101_0000_0000_0000_0000_0000_0000_0000 = .ok .lookup := by decide
theorem test_decode_numenc : decode 0b0110_1100_0000_0000_0000_0000_0000_0000 = .ok (.numenc 3) := by decide
theorem test_decode_pad : decode 0b0111_0100_0000_0000_0000_0000_0000_0000 = .ok (.pad 1) := by decide
theorem test_decode_rsclr : decode 0b1000_0000_0000_0000_0000_0000_0000_0000 = .ok .rsclr := by decide
theorem test_decode_rsstep : decode 0b1001_0000_0000_0000_0000_0000_1101_1010 = .ok (.rsstep 0xDA) := by decide
theorem test_decode_rsgen : decode 0b1010_0000_0000_0000_0000_0000_0000_0000 = .ok .rsgen := by decide
theorem test_decode_bbappcw : decode 0b1011_1000_0000_0000_0000_0000_0000_0000 = .ok (.bbappcw 2) := by decide
theorem test_decode_encode : decode 0b1100_0000_0000_0000_0000_0000_0000_0000 = .ok .encode := by decide
theorem test_decode_clrerr : decode 0b1101_0000_0000_0000_0000_0000_0000_0000 = .ok .clrerr := by decide
theorem test_decode_reserved : decode 0b1110_0001_0010_0011_0100_0101_0110_0111 = .ok (.reservedE 0x1234567) := by decide
theorem test_decode_reset : decode 0b1111_0000_0000_0000_0000_0000_0000_0000 = .ok .reset := by decide
/-- V91, V93 to V97, V25: illegal words. -/
theorem test_decode_illegal :
    decode 0x00000001 = .error (.mustBeZero 0) ∧ decode 0x11000000 = .error (.mustBeZero 1)
    ∧ decode 0x44000000 = .error (.mustBeZero 4) ∧ decode 0x20200000 = .error (.mustBeZero 2)
    ∧ decode 0x90000100 = .error (.mustBeZero 9) ∧ decode 0xD0000001 = .error (.mustBeZero 13)
    ∧ decode 0x20110000 = .error (.widthOutOfRange 17) := by decide
theorem test_encode_bbappv : encode (.bbappv 1 10 123) = 0x240A007B := by decide
/-- No word belongs to two rows of R84. -/
theorem test_rows_disjoint :
    opcodeRows.Pairwise (fun p q => (p.pattern ^^^ q.pattern) &&& p.mask &&& q.mask ≠ 0) := by decide
/-- The reserved constructor is no command, every other row is (R84, R86). -/
theorem test_isCommand : Instr.isCommand (.reservedE 0) = false ∧ Instr.isCommand .reset = true := by decide

/-! ### One step per command, against the spec's vectors -/

/-- V90. -/
theorem test_nop : nextOf (exec .nop busy) = some busy := by decide
/-- V29. -/
theorem test_bbclr : (nextOf (exec (.bbclr 0) busy)).map (·.buf 0) = some [] := by decide
/-- V21: the document's vector for `1234`. -/
theorem test_bbappv : (nextOf (exec (.bbappv 1 4 4) (fresh.setBuf 1 (b 123 10)))).map (·.buf 1)
    = some [false, false, false, true, true, true, true, false, true, true, false, true, false, false] := by decide
/-- V24: silent truncation. -/
theorem test_bbappv_truncates : (nextOf (exec (.bbappv 0 3 13) fresh)).map (·.buf 0) = some [true, false, true] := by
  decide
/-- V26 on short buffers: the source's bits follow, the source is kept. -/
theorem test_bbcat : (nextOf (exec (.bbcat 2 1) ((fresh.setBuf 2 [false, false, true]).setBuf 1 [true, false]))).map
    (fun t => (t.buf 2, t.buf 1)) = some ([false, false, true, true, false], [true, false]) := by decide
/-- V27: the buffer doubles. -/
theorem test_bbcat_itself : (nextOf (exec (.bbcat 0 0) (fresh.setBuf 0 [true, false, true]))).map (·.buf 0)
    = some [true, false, true, true, false, true] := by decide
/-- V31h: the last group `1101` gives `0D`, not `D0`. -/
theorem test_bbtocw : (nextOf (exec (.bbtocw 0) busy)).map (·.cw) = some [0xA3, 0xDA, 0x0D] := by decide +kernel
/-- V31e. -/
theorem test_bbtocw_ninth_bit : toCodewords (b 0x147 9) = [0xA3, 0x01] := by decide +kernel
/-- V32, the appended sixteen bits. -/
theorem test_bbappcw : (nextOf (exec (.bbappcw 0) busy)).map (fun t => (t.buf 0).drop 20) = some (b 0x1460 16) := by
  decide +kernel
/-- V35c: the register image of the pad policy. -/
theorem test_lookup : (nextOf (exec .lookup (selected 3 0 []))).map (fun t => (readOffset t 0x34, readOffset t 0x24))
    = some (0xEC112084, 0x201) := by decide
/-- V35d: an unregistered pair. -/
theorem test_lookup_unregistered : (nextOf (exec .lookup { loaded 1 0 [] with version := 7 })).map
    (fun t => (t.errcode, t.capvalid, t.capr.dcb)) = some (1, false, 20) := by decide
/-- V36i: `101 0001111011 0101101`. -/
theorem test_numenc : (nextOf (exec (.numenc 0) (loaded 1 0 p12345))).map (·.buf 0)
    = some (b 5 3 ++ b 123 10 ++ b 45 7) := by decide +kernel
/-- V37a. -/
theorem test_numenc_position : (nextOf (exec (.numenc 0) (loaded 1 0 p12a))).map
    (fun t => (t.errcode, t.errinfo)) = some (2, 2) := by decide +kernel
/-- V43: terminator, alignment, pattern. -/
theorem test_pad : (nextOf (exec (.pad 0) ((loaded 3 0 []).setBuf 0 (b 0x2A3DAD 23)))).map (·.buf 0)
    = some (b 0x547B5A00EC11 48) := by decide +kernel
/-- V45: one bit too long. -/
theorem test_pad_exceeded : (nextOf (exec (.pad 0) ((loaded 4 0 []).setBuf 0 (b 0xA3DAD 20)))).map
    (fun t => (t.errcode, (t.buf 0).length)) = some (4, 20) := by decide +kernel
/-- R173's example. -/
theorem test_rsclr : (nextOf (exec .rsclr busy)).map (·.rem) = some [0x00, 0x00] := by decide
/-- V6Ad, first two steps. -/
theorem test_rsstep : (nextOf (exec (.rsstep 0x12) { fresh with rem := [0, 0, 0] })).map (·.rem) = some [0x7E, 0xFC, 0x90] := by
  decide +kernel
theorem test_rsstep_feedback : (nextOf (exec (.rsstep 0x34) { fresh with rem := [0x7E, 0xFC, 0x90] })).map (·.rem)
    = some [0x17, 0x5B, 0x6A] := by decide +kernel
/-- V6B, V61. -/
theorem test_rsgen : (nextOf (exec .rsgen { loaded 2 0 [] with cw := [0x40, 0x18, 0xAC, 0xC3, 0x00] })).map (·.rem)
    = some [0x86, 0x0D, 0x22, 0xAE, 0x30] := by decide +kernel
/-- V77: codewords, ECC and length of the whole pipeline. -/
theorem test_encode : (nextOf (exec .encode (selected 2 0 p01234567))).map (fun t => (t.cw, t.rem, (t.buf 0).length))
    = some ([0x40, 0x18, 0xAC, 0xC3, 0x00], [0x86, 0x0D, 0x22, 0xAE, 0x30], 80) := by decide +kernel
/-- V7B: the pattern pad policy, the output bit for bit. -/
theorem test_encode_pattern : (nextOf (exec .encode (selected 3 0 p12345))).map (·.buf 0)
    = some (b 0x547B5A00EC11589444 72) := by decide +kernel
/-- V9B. -/
theorem test_clrerr : (nextOf (exec .clrerr failed)) = some { failed with errcode := 0, errinfo := 0 } := by decide +kernel
/-- V92. -/
theorem test_reserved : (nextOf (exec (.reservedE 0x1234567) busy)).map (·.errcode) = some 7 := by decide
/-- V9C. -/
theorem test_reset : (nextOf (exec .reset failed)).map (fun t => (t.errcode, t.version, t.cw, t.pay))
    = some (0, 0, [], failed.pay) := by decide +kernel

/-! ### The field and the ports, against the spec's vectors -/

/-- V50 to V54, V59b. -/
theorem test_gfMul : gfMul 0x02 0x80 = 0x1D ∧ gfMul 0x80 0x80 = 0x13 ∧ gfMul 0xFF 0xFF = 0xE2 ∧ gfMul 0x53 0xCA = 0x8F := by
  decide +kernel
theorem test_gfInv : gfInv 0xFF = some 0xFD ∧ gfLog 0xFF = some 175 := by decide +kernel
/-- R166, `n = 5` and `n = 10`. -/
theorem test_genPoly : genPoly 5 = [0x01, 0x1F, 0xC6, 0x3F, 0x93, 0x74]
    ∧ genPoly 10 = [0x01, 0xD8, 0xC2, 0x9F, 0x6F, 0xC7, 0x5E, 0x5F, 0x71, 0x9D, 0xC1] := by decide +kernel
/-- V60. -/
theorem test_rsRemainder : rsRemainder 10
    [0x10, 0x20, 0x0C, 0x56, 0x61, 0x80, 0xEC, 0x11, 0xEC, 0x11, 0xEC, 0x11, 0xEC, 0x11, 0xEC, 0x11]
    = [0xA5, 0x24, 0xD4, 0xC1, 0xED, 0x36, 0xC7, 0x87, 0x2C, 0x55] := by decide +kernel
/-- V34: the bit read port, in range and past the end. -/
theorem test_bbbit : readOffset { fresh.setBuf 2 [false, false, true] with bbptr := 0x20002 } 0x54 = 0x80000001
    ∧ readOffset { fresh.setBuf 2 [false, false, true] with bbptr := 0x20003 } 0x54 = 0 := by decide
/-- V9G. -/
theorem test_write_version : (nextOf (step { loaded 1 0 [] with host := [.regWrite 32 0x10 0x12] })).map
    (fun t => (t.version, t.capvalid)) = some (2, false) := by decide
/-- V84: the count test comes before the digit test (V85). -/
theorem test_encode_count_first : (nextOf (exec .encode (selected 1 0 (p01234567.take 7 ++ [0x61])))).map (·.errcode)
    = some 3 := by decide +kernel
/-- V30's kind: a full buffer. -/
theorem test_overflow : (nextOf (exec (.bbappv 0 1 1) full)).map (·.errcode) = some 8 := by decide +kernel
/-- R88, R89: the spec's notation (V20, and the expansion of `select`). -/
theorem test_assemble : assemble "bbappv 1, 10, 123".toList = some [cmdWrite 0x240A007B]
    ∧ assemble "rd BBLEN[0]".toList = some [.regRead 32 0x40]
    ∧ assemble "select 3, 0".toList = some [.regWrite 32 0x10 3, .regWrite 32 0x14 0] := by decide +kernel
/-- The first command after reset, as the host places it. -/
theorem test_first_command : (nextOf (step (State.reset.withFetchWord 32 0x2010ABCD))).map (·.buf 0)
    = some (b 0xABCD 16) := by decide +kernel
theorem test_decodeTableWord : decodeTableWord 32 0x6C000000 = some (.numenc 3) := by decide

/-! ### Witnesses: hypotheses that are met -/

/-- Sizes up to 32768 fit the reference `BBCAP`. -/
theorem fits_test {s : State} (h : s.cfg = testConfig) {n : Nat} (hn : n ≤ 32768) : Fits s.cfg n := by
  intro c hc
  rw [h] at hc
  injection hc with hc
  omega

theorem not_fits_of {cfg : Config} {c n : Nat} (h : cfg.bbcap = some c) (hn : c < n) : ¬ Fits cfg n := fun hf => by
  have := hf c h; omega

theorem witness_DecodeOfEncode : Instr.wf (.bbappv 3 16 0xFFFF) = true := by decide
theorem witness_EncodeOfDecode : decode 0x2F100000 = .error (.mustBeZero 2) ∧ decode 0x2C10FFFF = .ok (.bbappv 3 16 0xFFFF) := by
  decide
theorem witness_IllegalWord : ¬ IsCommandWord 0xE1234567 ∧ ¬ IsCommandWord 0x20110000 ∧ busy.errcode = 0
    ∧ failed.errcode ≠ 0 := by
  unfold IsCommandWord; decide +kernel
theorem witness_CommandWord : IsCommandWord 0x2010ABCD := by unfold IsCommandWord; decide +kernel
theorem witness_StepRuns : (busy.withFetchWord 32 0x240A007B).host = .regWrite 32 0x00 0x240A007B :: []
    ∧ decode 0x240A007B = .ok (.bbappv 1 10 123) := by decide +kernel
/-- A word decoding rejects, with no error recorded and with one (V91, V9A). -/
theorem witness_StepRunsRejected : (busy.withFetchWord 32 0x00000001).host = .regWrite 32 0x00 0x00000001 :: []
    ∧ decode 0x00000001 = .error (.mustBeZero 0) ∧ (busy.withFetchWord 32 0x00000001).errcode = 0
    ∧ (failed.withFetchWord 32 0xD0000001).host = .regWrite 32 0x00 0xD0000001 :: []
    ∧ decode 0xD0000001 = .error (.mustBeZero 13) ∧ (failed.withFetchWord 32 0xD0000001).errcode ≠ 0 := by decide +kernel
theorem witness_IllegalAccesses :
    fresh.host = [] ∧ (16 : Nat) ≠ 32 ∧ (fresh.pushAccess (.regRead 16 0)).host = .regRead 16 0 :: []
    ∧ 0x1FFD % 4 ≠ 0 ∧ (fresh.pushAccess (.regWrite 32 0x1FFD 0)).host = .regWrite 32 0x1FFD 0 :: []
    ∧ 0x2000 % 4 = 0 ∧ 0x1FFC < 0x2000 ∧ (fresh.pushAccess (.regRead 32 0x2000)).host = .regRead 32 0x2000 :: []
    ∧ (32 : Nat) ≠ 8 ∧ (fresh.pushAccess (.payRead 32 0)).host = .payRead 32 0 :: []
    ∧ 2 ^ fresh.cfg.payAw ≤ 8192 ∧ (fresh.pushAccess (.payWrite 8 8192 1)).host = .payWrite 8 8192 1 :: [] := by decide
theorem witness_AppendValue : (0 : Nat) < 1 ∧ (appendValue [true] 2 1)[1]? = some false := by decide
theorem witness_CodewordBits : (0 : Nat) < (b 0x147 9).length / 8 ∧ (b 0x147 9).length % 8 ≠ 0 ∧ (0 : Nat) < (b 0x147 9).length % 8
    ∧ (b 0x147 9).length % 8 ≤ 7 := by decide
theorem witness_Bbclr : busy.errcode = 0 := by decide
theorem witness_Bbappv : busy.errcode = 0 ∧ (16 : BitVec 5).toNat ≤ 16 ∧ Fits busy.cfg ((busy.buf 0).length + (16 : BitVec 5).toNat)
    ∧ ¬ Fits full.cfg ((full.buf 0).length + (1 : BitVec 5).toNat) ∧ full.errcode = 0 ∧ 16 < (17 : BitVec 5).toNat :=
  ⟨by decide, by decide, fits_test rfl (by decide), not_fits_of rfl (by decide +kernel), by decide, by decide⟩
theorem witness_Bbcat : busy.errcode = 0 ∧ Fits busy.cfg ((busy.buf 1).length + (busy.buf 0).length)
    ∧ full.errcode = 0 ∧ ¬ Fits full.cfg ((full.buf 0).length + (full.buf 0).length) :=
  ⟨by decide, fits_test rfl (by decide), by decide, not_fits_of rfl (by decide +kernel)⟩
theorem witness_Bbappcw : busy.errcode = 0 ∧ Fits busy.cfg ((busy.buf 0).length + 8 * busy.remn)
    ∧ full.errcode = 0 ∧ ¬ Fits full.cfg ((full.buf 0).length + 8 * full.remn) :=
  ⟨by decide, fits_test rfl (by decide), by decide, not_fits_of rfl (by decide +kernel)⟩
theorem witness_Bbtocw : busy.errcode = 0 ∧ (0 : Nat) < ((busy.buf 0).length + 7) / 8 := by decide
theorem witness_LookupFinds : configWf testConfig = true ∧ lookup testConfig 3 0 ≠ none ∧ lookup testConfig 7 0 = none := by
  decide
theorem witness_LookupLoads : (selected 5 0 []).errcode = 0
    ∧ lookup (selected 5 0 []).cfg (selected 5 0 []).version (selected 5 0 []).mode = some (zeroFillEntry 0 0 0 3 8 0)
    ∧ lookup (selected 1 2 []).cfg (selected 1 2 []).version (selected 1 2 []).mode = none := by decide
theorem witness_NumericEncodeLength : numericEncode (zeroFillEntry 0 0 0 3 20 2) [0x37] = .ok (b 0x17 7) := by rfl
theorem allDigits_12345 : AllDigits (loaded 1 0 p12345) := by unfold AllDigits; decide +kernel
theorem witness_Numenc : (loaded 1 0 p12345).errcode = 0 ∧ (loaded 1 0 p12345).capvalid = true ∧ (loaded 1 0 p12345).mode = 0
    ∧ (loaded 1 0 p12345).plen.toNat < 2 ^ (loaded 1 0 p12345).capr.ccw.toNat ∧ AllDigits (loaded 1 0 p12345)
    ∧ Fits (loaded 1 0 p12345).cfg (encodedLength (loaded 1 0 p12345).capr (loaded 1 0 p12345).plen.toNat) :=
  ⟨by decide, by decide, by decide, by decide +kernel, allDigits_12345, fits_test rfl (by decide +kernel)⟩
theorem witness_NumencErrors :
    fresh.errcode = 0 ∧ fresh.capvalid = false
    ∧ (loaded 2 1 []).errcode = 0 ∧ (loaded 2 1 []).capvalid = true ∧ (loaded 2 1 []).mode ≠ 0
    ∧ (loaded 1 0 p01234567).capvalid = true ∧ (loaded 1 0 p01234567).mode = 0
    ∧ 2 ^ (loaded 1 0 p01234567).capr.ccw.toNat ≤ (loaded 1 0 p01234567).plen.toNat := by decide +kernel
theorem witness_NumencInvalidDigit :
    (loaded 1 0 p12a).errcode = 0 ∧ (loaded 1 0 p12a).capvalid = true ∧ (loaded 1 0 p12a).mode = 0
    ∧ (loaded 1 0 p12a).plen.toNat < 2 ^ (loaded 1 0 p12a).capr.ccw.toNat ∧ 2 < (loaded 1 0 p12a).plen.toNat
    ∧ 0x39 < ((loaded 1 0 p12a).payByte 2).toNat
    ∧ ∀ j, j < 2 → 0x30 ≤ ((loaded 1 0 p12a).payByte j).toNat ∧ ((loaded 1 0 p12a).payByte j).toNat ≤ 0x39 := by
  decide +kernel
theorem witness_NumencOverflow : tiny.errcode = 0 ∧ tiny.capvalid = true ∧ tiny.mode = 0
    ∧ tiny.plen.toNat < 2 ^ tiny.capr.ccw.toNat ∧ AllDigits tiny ∧ ¬ Fits tiny.cfg (encodedLength tiny.capr tiny.plen.toNat) :=
  ⟨by decide, by decide, by decide, by decide +kernel, allDigits_12345, not_fits_of rfl (by decide +kernel)⟩
/-- `len = dcb`, the boundary of R151, and one bit more (key 4). -/
theorem witness_Pad : busy.errcode = 0 ∧ busy.capvalid = true ∧ (busy.buf 0).length ≤ busy.capr.dcb.toNat
    ∧ Fits busy.cfg busy.capr.dcb.toNat ∧ fresh.capvalid = false
    ∧ ((loaded 4 0 []).setBuf 0 (b 0xA3DAD 20)).capvalid = true
    ∧ ((loaded 4 0 []).setBuf 0 (b 0xA3DAD 20)).capr.dcb.toNat < (((loaded 4 0 []).setBuf 0 (b 0xA3DAD 20)).buf 0).length
    ∧ tiny.capvalid = true ∧ (tiny.buf 0).length ≤ tiny.capr.dcb.toNat ∧ ¬ Fits tiny.cfg tiny.capr.dcb.toNat :=
  ⟨by decide, by decide, by decide +kernel, fits_test rfl (by decide), by decide, by decide +kernel, by decide +kernel,
    by decide, by decide, not_fits_of rfl (by decide)⟩
theorem witness_PaddingHasThreeParts : entryWf (loaded 3 0 []).capr = true ∧ (b 0x2A3DAD 23).length ≤ (loaded 3 0 []).capr.dcb.toNat
    ∧ 4 = min (loaded 3 0 []).capr.padTerm.toNat ((loaded 3 0 []).capr.dcb.toNat - (b 0x2A3DAD 23).length)
    ∧ 5 = min (((loaded 3 0 []).capr.padAlign.toNat - ((b 0x2A3DAD 23).length + 4) % (loaded 3 0 []).capr.padAlign.toNat)
          % (loaded 3 0 []).capr.padAlign.toNat) ((loaded 3 0 []).capr.dcb.toNat - ((b 0x2A3DAD 23).length + 4)) := by
  decide +kernel
theorem witness_ZeroFill : busy.errcode = 0 ∧ busy.capvalid = true ∧ (busy.buf 1).length ≤ busy.capr.dcb.toNat
    ∧ Fits busy.cfg busy.capr.dcb.toNat ∧ busy.capr.padTerm = 0 ∧ busy.capr.padAlign = 1 ∧ busy.capr.patLen = 1
    ∧ busy.capr.patBits = 0 :=
  ⟨by decide, by decide, by decide, fits_test rfl (by decide), by decide, by decide, by decide, by decide⟩
theorem witness_FieldLaws : gfMul 0 0x55 = 0 := by decide +kernel
theorem witness_Tables : (0x53 : Codeword) ≠ 0 ∧ (254 : Nat) < 255 := by decide
theorem witness_Roots : (4 : Nat) < 5 ∧ polyEval (genPoly 5) (gfExp 4) = 0 := by decide +kernel
/-- V62: data with its remainder has the root `2^4` and not `2^5`. -/
theorem witness_DataWithRemainder :
    polyEval ([0x40, 0x18, 0xAC, 0xC3, 0x00] ++ rsRemainder 5 [0x40, 0x18, 0xAC, 0xC3, 0x00]) (gfExp 4) = 0
    ∧ polyEval ([0x40, 0x18, 0xAC, 0xC3, 0x00] ++ rsRemainder 5 [0x40, 0x18, 0xAC, 0xC3, 0x00]) (gfExp 5) = 0xC7 := by
  decide +kernel
/-- V69f. -/
theorem witness_RemainderLaws : ([0x22, 0x00, 0x00] : List Codeword).length = ([0xA3, 0xDA, 0x0D] : List Codeword).length
    ∧ rsRemainder 2 [0x81, 0xDA, 0x0D] = [0xF7, 0xA1] := by decide +kernel
theorem witness_Rsclr : busy.errcode = 0 ∧ busy.capvalid = true ∧ fresh.errcode = 0 ∧ fresh.capvalid = false := by decide
theorem witness_Rsstep : busy.errcode = 0 ∧ 1 < busy.remn := by decide
theorem witness_Rsgen : busy.errcode = 0 ∧ busy.capvalid = true ∧ busy.cw = [0xA3, 0xDA, 0x0D] ∧ fresh.capvalid = false := by
  decide
/-- Key 1 as `lookup` gives it. -/
theorem lookup_key1 (p : List Byte) : lookup (selected 1 0 p).cfg (selected 1 0 p).version (selected 1 0 p).mode
    = some (zeroFillEntry 11 0 0 3 20 2) := rfl
theorem allDigits_selected : AllDigits (selected 1 0 p12345) := by unfold AllDigits; decide +kernel
/-- The encoded length is `dcb` exactly, the boundary of R193. -/
theorem witness_Encode : (selected 1 0 p12345).errcode = 0
    ∧ lookup (selected 1 0 p12345).cfg (selected 1 0 p12345).version (selected 1 0 p12345).mode
        = some (zeroFillEntry 11 0 0 3 20 2)
    ∧ (selected 1 0 p12345).mode = 0 ∧ (selected 1 0 p12345).plen.toNat < 2 ^ (3 : BitVec 5).toNat
    ∧ AllDigits (selected 1 0 p12345) ∧ encodedLength (zeroFillEntry 11 0 0 3 20 2) (selected 1 0 p12345).plen.toNat = 20
    ∧ Fits (selected 1 0 p12345).cfg (20 + 8 * 2) :=
  ⟨by decide, rfl, by decide, by decide, allDigits_selected, by decide, fits_test rfl (by decide)⟩
/-- One state per clause of `EncodeRaisesTheFirstError`: unregistered, no encoder, count, digit. -/
theorem witness_EncodeErrors :
    (selected 7 0 []).errcode = 0 ∧ lookup (selected 7 0 []).cfg (selected 7 0 []).version (selected 7 0 []).mode = none
    ∧ (selected 2 1 []).errcode = 0 ∧ (selected 2 1 []).mode ≠ 0
    ∧ lookup (selected 2 1 []).cfg (selected 2 1 []).version (selected 2 1 []).mode = some (zeroFillEntry 13 1 1 3 40 5)
    ∧ (selected 1 0 p01234567).errcode = 0 ∧ (selected 1 0 p01234567).mode = 0
    ∧ 2 ^ (zeroFillEntry 11 0 0 3 20 2).ccw.toNat ≤ (selected 1 0 p01234567).plen.toNat
    ∧ (selected 1 0 p12a).errcode = 0 ∧ (selected 1 0 p12a).mode = 0
    ∧ (selected 1 0 p12a).plen.toNat < 2 ^ (zeroFillEntry 11 0 0 3 20 2).ccw.toNat ∧ 2 < (selected 1 0 p12a).plen.toNat
    ∧ 0x39 < ((selected 1 0 p12a).payByte 2).toNat
    ∧ ∀ j, j < 2 → 0x30 ≤ ((selected 1 0 p12a).payByte j).toNat ∧ ((selected 1 0 p12a).payByte j).toNat ≤ 0x39 := by
  decide +kernel
/-- `12345` selected for a key, with a `BBCAP`. -/
def capped (v : BitVec 16) (c : Nat) : State := { selected v 0 p12345 with cfg := { testConfig with bbcap := some c } }
/-- The data do not fit `BBCAP`. -/
theorem witness_EncodeDataOverflow : (capped 1 4).errcode = 0 ∧ (capped 1 4).mode = 0
    ∧ lookup (capped 1 4).cfg (capped 1 4).version (capped 1 4).mode = some (zeroFillEntry 11 0 0 3 20 2)
    ∧ (capped 1 4).plen.toNat < 2 ^ (zeroFillEntry 11 0 0 3 20 2).ccw.toNat ∧ AllDigits (capped 1 4)
    ∧ ¬ Fits (capped 1 4).cfg (encodedLength (zeroFillEntry 11 0 0 3 20 2) (capped 1 4).plen.toNat) :=
  ⟨rfl, rfl, rfl, by decide, allDigits_selected, not_fits_of rfl (by decide)⟩
/-- The data exceed the capacity by one bit: key 4, `20 = dcb + 1` (V89). -/
theorem witness_EncodeCapacity : (selected 4 0 p12345).errcode = 0 ∧ (selected 4 0 p12345).mode = 0
    ∧ lookup (selected 4 0 p12345).cfg (selected 4 0 p12345).version (selected 4 0 p12345).mode
        = some (zeroFillEntry 0 0 0 3 19 2)
    ∧ (selected 4 0 p12345).plen.toNat < 2 ^ (zeroFillEntry 0 0 0 3 19 2).ccw.toNat ∧ AllDigits (selected 4 0 p12345)
    ∧ Fits (selected 4 0 p12345).cfg (encodedLength (zeroFillEntry 0 0 0 3 19 2) (selected 4 0 p12345).plen.toNat)
    ∧ (zeroFillEntry 0 0 0 3 19 2).dcb.toNat < encodedLength (zeroFillEntry 0 0 0 3 19 2) (selected 4 0 p12345).plen.toNat :=
  ⟨rfl, rfl, rfl, by decide, allDigits_selected, fits_test rfl (by decide), by decide⟩
/-- The output exceeds `BBCAP` by one bit: `36 = 35 + 1`. -/
theorem witness_EncodeOutputOverflow : (capped 1 35).errcode = 0 ∧ (capped 1 35).mode = 0
    ∧ lookup (capped 1 35).cfg (capped 1 35).version (capped 1 35).mode = some (zeroFillEntry 11 0 0 3 20 2)
    ∧ (capped 1 35).plen.toNat < 2 ^ (zeroFillEntry 11 0 0 3 20 2).ccw.toNat ∧ AllDigits (capped 1 35)
    ∧ encodedLength (zeroFillEntry 11 0 0 3 20 2) (capped 1 35).plen.toNat ≤ (zeroFillEntry 11 0 0 3 20 2).dcb.toNat
    ∧ ¬ Fits (capped 1 35).cfg ((zeroFillEntry 11 0 0 3 20 2).dcb.toNat + 8 * (zeroFillEntry 11 0 0 3 20 2).ecc.toNat) :=
  ⟨rfl, rfl, rfl, by decide, allDigits_selected, by decide, not_fits_of rfl (by decide)⟩
theorem witness_SixCommands : (selected 1 0 p12345).errcode = 0 ∧ (selected 1 0 p12a).errcode = 0 := by decide
/-- Two states that differ in what `ENCODE` does not read. -/
theorem witness_History : busy.errcode = 0 ∧ (selected 1 0 p12345).errcode = 0 ∧ (selected 1 0 p12345).cfg = busy.cfg
    ∧ (selected 1 0 p12345).version = busy.version ∧ (selected 1 0 p12345).mode = busy.mode
    ∧ (selected 1 0 p12345).plen = busy.plen
    ∧ (∀ i, i < busy.plen.toNat → (selected 1 0 p12345).payByte i = busy.payByte i)
    ∧ (selected 1 0 p12345).cw ≠ busy.cw := by
  decide +kernel
/-- Both clauses of `ClrerrClearsTheRecord`: the second needs no record. -/
theorem witness_Clrerr : busy.errcode = 0 ∧ busy.errinfo = 0 := by decide
theorem witness_Reserved : busy.errcode = 0 := by decide
theorem witness_RecordedError : failed.errcode ≠ 0 ∧ (0x20080055 : Word) ≠ 0xD0000000 ∧ (0xD0000001 : Word) ≠ 0xF0000000 := by
  decide
/-- For each clause of `RaisingCommandChangesOnlyTheRecord` and `ErrorCodesRaisedByEachCommand` a command that raises. -/
theorem witness_Raising :
    full.errcode = 0 ∧ Instr.wf (.bbappv 0 1 1) = true ∧ (nextOf (exec (.bbappv 0 1 1) full)).map (·.errcode) = some 8
    ∧ (selected 7 0 []).errcode = 0 ∧ (nextOf (exec .lookup (selected 7 0 []))).map (·.errcode) = some 1
    ∧ (nextOf (exec .encode (selected 7 0 []))).map (·.errcode) = some 1
    ∧ (selected 1 0 p12a).errcode = 0
    ∧ (nextOf (exec .encode (selected 1 0 p12a))).map (fun t => (t.errcode, t.errinfo)) = some (2, 2) := by decide +kernel
theorem witness_InternalInvariant : (nextOf (step (busy.withFetchWord 32 0xE0000000))).map (·.errcode) = some 7
    ∧ (busy.withFetchWord 32 0xE0000000).errcode ≠ 6 := by decide +kernel
/-- `BBCAP` unbounded, and `BB[0]` about to double. -/
def unbounded : State := { busy with cfg := { testConfig with bbcap := none } }.withFetchWord 32 0x30000000
theorem witness_Unbounded : unbounded.cfg.bbcap = none ∧ unbounded.errcode ≠ 8
    ∧ (nextOf (step unbounded)).map (fun t => (t.errcode, (t.buf 0).length)) = some (0, 40) := by decide +kernel
theorem witness_CommandFrames : (nextOf (exec (.bbcat 1 0) busy)).map (·.buf 1) = some (busy.buf 0) ∧ ¬ mayWriteBuf (.bbcat 1 0) 0 :=
  ⟨by decide +kernel, by unfold mayWriteBuf; decide⟩
theorem witness_VersionWrite : fresh.cfg.vkeyW ≤ 16 ∧ (fresh.pushAccess (.regWrite 32 0x10 0x12)).host = .regWrite 32 0x10 0x12 :: []
    ∧ (fresh.pushAccess (.regWrite 32 0x14 7)).host = .regWrite 32 0x14 7 :: [] := by decide
theorem witness_LengthAndPointerWrites : fresh.cfg.payAw ≤ 16 ∧ (fresh.pushAccess (.regWrite 32 0x18 0x2005)).host = .regWrite 32 0x18 0x2005 :: []
    ∧ (fresh.pushAccess (.regWrite 32 0x50 0x7FFFF)).host = .regWrite 32 0x50 0x7FFFF :: []
    ∧ (fresh.pushAccess (.regWrite 32 0x5C 0x10001)).host = .regWrite 32 0x5C 0x10001 :: []
    ∧ (fresh.pushAccess (.regWrite 32 0x68 0x101)).host = .regWrite 32 0x68 0x101 :: [] := by decide
theorem witness_Reads : 0x1FFC % 4 = 0 ∧ (fresh.pushAccess (.regRead 32 0x1FFC)).host = .regRead 32 0x1FFC :: []
    ∧ 8191 < 2 ^ fresh.cfg.payAw ∧ (fresh.pushAccess (.payRead 8 8191)).host = .payRead 8 8191 :: [] := by decide
/-- Each read port at the last index in range and at the first out of range. -/
theorem witness_ReadPorts :
    { busy with cwptr := 2 }.cw[{ busy with cwptr := 2 }.cwptr.toNat]? = some 0x0D
    ∧ { busy with cwptr := 3 }.cwn ≤ { busy with cwptr := 3 }.cwptr.toNat
    ∧ { busy with remptr := 1 }.rem[{ busy with remptr := 1 }.remptr.toNat]? = some 0x60
    ∧ { busy with remptr := 2 }.remn ≤ { busy with remptr := 2 }.remptr.toNat
    ∧ (busy.buf 0)[({ busy with bbptr := 19 }.bbptr.extractLsb' 0 16).toNat]? = some true
    ∧ (busy.buf 0).length ≤ ({ busy with bbptr := 20 }.bbptr.extractLsb' 0 16).toNat := by decide +kernel
/-- Reserved offsets at both ends of their range, and the last read-only one, each as the host's next write. -/
theorem witness_Offsets :
    (IsReservedOffset 0x70 ∧ 0x70 % 4 = 0 ∧ 0x70 ≤ 0x1FFC
      ∧ (busy.pushAccess (.regWrite 32 0x70 0xFFFFFFFF)).host = .regWrite 32 0x70 0xFFFFFFFF :: [])
    ∧ (IsReservedOffset 0x1FFC ∧ 0x1FFC % 4 = 0
      ∧ (busy.pushAccess (.regWrite 32 0x1FFC 0xFFFFFFFF)).host = .regWrite 32 0x1FFC 0xFFFFFFFF :: [])
    ∧ (IsReadOnlyOffset 0x6C ∧ 0x6C % 4 = 0 ∧ 0x6C ≤ 0x1FFC
      ∧ (busy.pushAccess (.regWrite 32 0x6C 0xFFFFFFFF)).host = .regWrite 32 0x6C 0xFFFFFFFF :: []) := by
  unfold IsReservedOffset IsReadOnlyOffset; decide +kernel
/-- V9E, V9F: writes to a reserved and to a read-only offset are ignored. -/
theorem test_write_ignored : step (fresh.pushAccess (.regWrite 32 0x70 0xFFFFFFFF)) = .next fresh
    ∧ step (fresh.pushAccess (.regWrite 32 0x04 0xFFFFFFFF)) = .next fresh := ⟨rfl, rfl⟩
theorem witness_PayloadWrite : 8191 < 2 ^ fresh.cfg.payAw ∧ memWf fresh.pay = true
    ∧ (fresh.pushAccess (.payWrite 8 8191 0x39)).host = .payWrite 8 8191 0x39 :: [] := by decide
theorem witness_HardReset : (busy.pushAccess .hardReset).host = .hardReset :: [] := by decide
theorem witness_ResetState : fresh = State.resetWith testConfig ∧ configWf testConfig = true := ⟨rfl, by decide⟩
/-- `busy` with the host about to write `ENCODE`. -/
def encoding : State := busy.withFetchWord 32 0xC0000000
/-- A state with an entry loaded, digits written and a buffer filled meets the invariants, and a step runs from it. -/
theorem witness_StepKeeps : Inv encoding ∧ ∃ t, step encoding = .next t := by
  refine ⟨⟨by decide, fun _ => by decide, fun d => fits_test rfl ?_, ?_, by decide, by decide, fun _ => by decide,
    fun _ => by decide, by decide, by decide, by decide +kernel, by decide +kernel⟩, exec_total .encode _⟩
  · revert d; decide +kernel
  · intro c hc
    injection hc with hc
    subst hc
    decide
end Sys2Proof.Tests
end

/-! PROOFS. Bit sequences and the value they spell (R9). -/
namespace Sys2Proof.Machine

/-- The first of `w + 1` bits is bit `w` of the value. -/
theorem bits_succ (v w : Nat) : bits v (w + 1) = v.testBit w :: bits v w := by
  simp [bits, List.range_succ_eq_map, Function.comp_def, Nat.sub_sub, Nat.add_comm]

/-- `val` inverts `bits`, up to the bits above the width (R9). -/
theorem val_bits (v w : Nat) : val (bits v w) = v % 2 ^ w := by
  induction w with
  | zero => simp [val, Nat.mod_one]
  | succ w ih =>
    rw [bits_succ, val, ih, bits_length, Nat.mod_pow_succ, ← Nat.toNat_testBit]
    cases v.testBit w <;> simp [Nat.add_comm]

theorem val_lt (b : Bits) : val b < 2 ^ b.length := by
  induction b with
  | nil => simp [val]
  | cons x xs ih =>
    rw [val, List.length_cons, Nat.pow_succ]
    split <;> omega

/-- A sequence is determined by its length and its value: below the first bit every value is less than that bit's
weight. -/
theorem val_injective : ∀ {b c : Bits}, b.length = c.length → val b = val c → b = c
  | [], [], _, _ => rfl
  | x :: xs, y :: ys, hlen, hval => by
    have hlen' : xs.length = ys.length := by simpa using hlen
    have hx := val_lt xs
    have hy := val_lt ys
    simp only [val, hlen'] at hx hval
    have hhead : x = y := by cases x <;> cases y <;> simp at hval ⊢ <;> omega
    subst hhead
    rw [val_injective hlen' (by omega)]

/-- `bits` inverts `val` at the sequence's own length (R9). -/
theorem bits_val (b : Bits) : bits (val b) b.length = b :=
  val_injective (bits_length _ _) (by rw [val_bits, Nat.mod_eq_of_lt (val_lt b)])

/-- Settles O8: `val_bits` by induction on the width; the other direction because length and value determine a
sequence. -/
theorem valInvertsBits : Obligations.ValInvertsBits :=
  ⟨fun v w => ⟨bits_length v w, val_bits v w⟩, bits_val⟩

end Sys2Proof.Machine

/-! PROOFS. The capacity table as a partial function (R7, R121). -/
namespace Sys2Proof.Machine

/-- The search fails exactly when no row registers the pair; this needs no well-formedness. -/
theorem lookupRows_eq_none_iff (t : List CapRow) (v : BitVec 16) (m : BitVec 2) :
    lookupRows t v m = none ↔ ∀ r ∈ t, ¬ (r.key = v ∧ r.mode = m) := by
  induction t with
  | nil => simp [lookupRows]
  | cons r rs ih =>
    rw [lookupRows, List.forall_mem_cons, ← ih]
    by_cases h : r.key = v ∧ r.mode = m <;> simp [h]

/-- An entry the search finds is that of a row that registers the pair. -/
theorem exists_mem_of_lookupRows {t : List CapRow} {v : BitVec 16} {m : BitVec 2} {e : CapEntry}
    (h : lookupRows t v m = some e) : ∃ r ∈ t, r.key = v ∧ r.mode = m ∧ r.entry = e := by
  induction t with
  | nil => cases h
  | cons r rs ih =>
    rw [lookupRows] at h
    split at h
    next hr => exact ⟨r, List.mem_cons_self, hr.1, hr.2, Option.some.inj h⟩
    next =>
      obtain ⟨q, hq, hpair⟩ := ih h
      exact ⟨q, List.mem_cons_of_mem r hq, hpair⟩

theorem pairsDistinct_cons {r : CapRow} {rs : List CapRow} (h : pairsDistinct (r :: rs) = true) :
    (∀ q ∈ rs, ¬ (r.key = q.key ∧ r.mode = q.mode)) ∧ pairsDistinct rs = true := by
  rw [pairsDistinct, Bool.and_eq_true, List.all_eq_true] at h
  obtain ⟨hr, hrs⟩ := h
  refine ⟨fun q hq hpair => ?_, hrs⟩
  simpa [hpair.1, hpair.2] using hr q hq

/-- With no pair registered twice, the search for the pair of a row finds that row's entry. -/
theorem lookupRows_of_mem {t : List CapRow} (hd : pairsDistinct t = true) {r : CapRow} (hr : r ∈ t) :
    lookupRows t r.key r.mode = some r.entry := by
  induction t with
  | nil => cases hr
  | cons q qs ih =>
    obtain ⟨hq, hqs⟩ := pairsDistinct_cons hd
    rw [lookupRows]
    cases hr with
    | head => exact if_pos ⟨rfl, rfl⟩
    | tail _ hmem => rw [if_neg (hq r hmem), ih hqs hmem]

theorem pairsDistinct_of_configWf {cfg : Config} (h : configWf cfg = true) : pairsDistinct cfg.cap = true := by
  simp only [configWf, tableWf, Bool.and_eq_true] at h
  exact h.2.2

/-- Settles O16: the search answers a registering row's entry, and by distinctness any registering row's. -/
theorem lookupFindsTheRegisteredEntry : Obligations.LookupFindsTheRegisteredEntry := by
  intro cfg v m hwf
  refine ⟨fun e => ⟨exists_mem_of_lookupRows, ?_⟩, lookupRows_eq_none_iff cfg.cap v m⟩
  rintro ⟨r, hr, rfl, rfl, rfl⟩
  exact lookupRows_of_mem (pairsDistinct_of_configWf hwf) hr

end Sys2Proof.Machine

/-! PROOFS. What one step can do to the state: the host access it is, and the command that access may start
(R5, R26, R69). -/
namespace Sys2Proof.Machine

/-- Everything a host access that answers a next state can do to the state `u`, in which it has already left the
host's list. -/
inductive HostEffect (u : State) : State → Prop
  /-- a write to `CMD` -/
  | command {t : State} (w : Word) (h : runWord w u = .next t) : HostEffect u t
  /-- a write to a read-only or reserved offset -/
  | ignored : HostEffect u u
  | version (v : Word) : HostEffect u (u.writeVersion v)
  | mode (v : Word) : HostEffect u (u.writeMode v)
  | plen (v : Word) : HostEffect u (u.writePlen v)
  | bbptr (v : Word) : HostEffect u (u.writeBbptr v)
  | cwptr (v : Word) : HostEffect u (u.writeCwptr v)
  | remptr (v : Word) : HostEffect u (u.writeRemptr v)
  /-- a read of either port -/
  | read (r : Reply) : HostEffect u (u.setReply r)
  | payload (a : Nat) (v : Byte) (h : a < 2 ^ u.cfg.payAw) : HostEffect u (u.writePay a v)
  | hardReset : HostEffect u u.hardReset

theorem writeReg_effect {u t : State} {v : Word} {r : Reg} (h : writeReg u v r = .next t) : HostEffect u t := by
  cases r with
  | cmd => exact .command v h
  | version => cases h; exact .version v
  | mode => cases h; exact .mode v
  | plen => cases h; exact .plen v
  | bbptr => cases h; exact .bbptr v
  | cwptr => cases h; exact .cwptr v
  | remptr => cases h; exact .remptr v
  | _ => cases h; exact .ignored

theorem writeOffset_effect {u t : State} {off : Nat} {v : Word} (h : writeOffset u off v = .next t) :
    HostEffect u t := by
  unfold writeOffset at h
  split at h
  · exact writeReg_effect h
  · cases h; exact .ignored

theorem perform_effect {a : Access} {u t : State} (h : perform a u = .next t) : HostEffect u t := by
  cases a with
  | regRead width off =>
    obtain ⟨-, -, -, hk⟩ := regAccess_next h
    cases hk; exact .read _
  | regWrite width off v =>
    obtain ⟨-, -, -, hk⟩ := regAccess_next h
    exact writeOffset_effect hk
  | payRead width addr =>
    obtain ⟨-, -, hk⟩ := payAccess_next h
    cases hk; exact .read _
  | payWrite width addr v =>
    obtain ⟨-, haddr, hk⟩ := payAccess_next h
    cases hk; exact .payload addr v haddr
  | hardReset => cases h; exact .hardReset

/-- A step takes one access off the host's list, and its effect is that access's. -/
theorem step_effect {s t : State} (h : step s = .next t) :
    ∃ a rest, s.host = a :: rest ∧ HostEffect (s.setHost rest) t := by
  cases hhost : s.host with
  | nil => rw [step_nil hhost] at h; cases h
  | cons a rest =>
    rw [step_cons hhost] at h
    exact ⟨a, rest, rfl, perform_effect h⟩

/-- A word decodes past its must-be-zero test only where the bits are zero, and then to the command tested for
(R85). -/
theorem needZero_ok {op : BitVec 4} {zero : Bool} {i j : Instr} (h : needZero op zero i = .ok j) :
    zero = true ∧ i = j := by
  unfold needZero at h
  split at h
  · exact ⟨‹_›, Except.ok.inj h⟩
  · cases h

/-- What a word decodes to is well-formed: `BBAPPV` is the only command with an operand to test (R82, R85). -/
theorem decode_wf {w : Word} {i : Instr} (h : decode w = .ok i) : i.wf = true := by
  unfold decode at h
  split at h
  case h_3 =>
    split_ifs at h with _ hwidth
    cases h
    exact decide_eq_true hwidth
  case h_15 => cases h; rfl
  all_goals
    obtain ⟨-, rfl⟩ := needZero_ok h
    rfl

/-- A word written to `CMD` runs the well-formed command it decodes to, or is an illegal command. -/
theorem runWord_next {w : Word} {s t : State} (h : runWord w s = .next t) :
    (∃ i, decode w = .ok i ∧ i.wf = true ∧ exec i s = .next t) ∨ illegalCommand s = .next t := by
  unfold runWord at h
  split at h
  next i hi => exact .inl ⟨i, hi, decode_wf hi, h⟩
  next => exact .inr h

end Sys2Proof.Machine

/-! PROOFS. Which error record a command and a step can leave (R211, R219, R222). -/
namespace Sys2Proof.Machine

/-- From `s`, the record of `t` is the one of `s`, or none, or one of `codes`; and `BufferOverflow` only where some
length does not fit a bit buffer (R219). -/
def MayLeave (codes : List (BitVec 4)) (s t : State) : Prop :=
  t.errcode = s.errcode ∨ t.errcode = 0 ∨ (t.errcode ∈ codes ∧ (t.errcode = 8 → ∃ n, ¬ Fits s.cfg n))

section
variable {codes : List (BitVec 4)} {s t : State}

theorem MayLeave.of_subset {codes' : List (BitVec 4)} (h : MayLeave codes s t) (hsub : codes ⊆ codes') :
    MayLeave codes' s t :=
  h.imp_right (Or.imp_right (And.imp_left fun hmem => hsub hmem))

/-- The entry test only adds the case that nothing changes. -/
theorem MayLeave.of_command {body : State} (hb : MayLeave codes s body) (h : command s body = .next t) :
    MayLeave codes s t := by
  obtain ⟨-, rfl⟩ | ⟨-, rfl⟩ := command_inv h
  · exact hb
  · exact .inl rfl

/-- Code 8 is `BufferOverflow` alone (R211). -/
theorem errCode_eq_eight_iff (e : ErrKind) : errCode e = 8 ↔ e = .bufferOverflow := by
  cases e <;> decide

/-- Raising a kind other than `BufferOverflow`, whatever else has been written before. -/
theorem mayLeave_raise {e : ErrKind} (hmem : errCode e ∈ codes) (hne : e ≠ .bufferOverflow) (u : State)
    (info : BitVec 16) : MayLeave codes s (u.raise e info) :=
  .inr (.inr ⟨hmem, fun h8 => absurd ((errCode_eq_eight_iff e).1 h8) hne⟩)

theorem mayLeave_raise_overflow (hmem : 8 ∈ codes) {n : Nat} (hn : ¬ Fits s.cfg n) (u : State) (info : BitVec 16) :
    MayLeave codes s (u.raise .bufferOverflow info) :=
  .inr (.inr ⟨hmem, fun _ => ⟨n, hn⟩⟩)

theorem mayLeave_storeBuf (hmem : 8 ∈ codes) (d : BitVec 2) (x : Bits) : MayLeave codes s (s.storeBuf d x) := by
  by_cases h : Fits s.cfg x.length
  · rw [storeBuf_fits h]; exact .inl rfl
  · rw [storeBuf_over h]; exact mayLeave_raise_overflow hmem h s 0

end

theorem illegalCommand_mayLeave {s t : State} (h : illegalCommand s = .next t) : MayLeave [7] s t :=
  .of_command (mayLeave_raise (by decide) (by decide) s 0) h

/-- `overCap` as the failure of `Fits`, in the direction an overflow test needs. -/
theorem not_fits_of_overCap {cfg : Config} {n : Nat} (h : overCap cfg n = true) : ¬ Fits cfg n := by
  simp [← overCap_eq_false_iff, h]

/-- The numeric encoder fails by its count test or its digit test (R132, R135). -/
theorem numericEncode_error {e : CapEntry} {p : List Byte} {f : Failure} (h : numericEncode e p = .error f) :
    f.kind = .characterCountOverflow ∨ f.kind = .invalidDigit := by
  unfold numericEncode at h
  split at h
  · cases h; exact .inl rfl
  · split at h
    · cases h; exact .inr rfl
    · cases h

/-- Steps 3 to 6 of `ENCODE` fail in the numeric encoder, by the data capacity, or by a length over `BBCAP`
(R194). -/
theorem encodePayload_error {cfg : Config} {e : CapEntry} {p : List Byte} {f : Failure}
    (h : encodePayload cfg e p = .error f) :
    f.kind = .characterCountOverflow ∨ f.kind = .invalidDigit ∨ f.kind = .dataCapacityExceeded
      ∨ (f.kind = .bufferOverflow ∧ ∃ n, ¬ Fits cfg n) := by
  unfold encodePayload at h
  split at h
  next hnum => cases h; exact (numericEncode_error hnum).imp_right .inl
  next =>
    split_ifs at h with hdata hdcb hpad hout
    · cases h; exact .inr (.inr (.inr ⟨rfl, _, not_fits_of_overCap hdata⟩))
    · cases h; exact .inr (.inr (.inl rfl))
    · cases h; exact .inr (.inr (.inr ⟨rfl, _, not_fits_of_overCap hpad⟩))
    · cases h; exact .inr (.inr (.inr ⟨rfl, _, not_fits_of_overCap hout⟩))

theorem execNumenc_mayLeave {d : BitVec 2} {s t : State} (h : execNumenc d s = .next t) :
    MayLeave [2, 3, 5, 8, 9] s t := by
  refine .of_command ?_ h
  split_ifs
  · exact mayLeave_raise (by decide) (by decide) s 0
  · exact mayLeave_raise (by decide) (by decide) s 0
  split
  next f hf =>
    unfold State.fail
    obtain hk | hk := numericEncode_error hf <;> rw [hk]
    · exact mayLeave_raise (by decide) (by decide) s f.info
    · exact mayLeave_raise (by decide) (by decide) s f.info
  next x _ => exact mayLeave_storeBuf (by decide) d x

theorem execPad_mayLeave {d : BitVec 2} {s t : State} (h : execPad d s = .next t) :
    MayLeave [4, 8, 9] s t := by
  refine .of_command ?_ h
  split_ifs with _ _ hover
  · exact mayLeave_raise (by decide) (by decide) s 0
  · exact mayLeave_raise (by decide) (by decide) s 0
  · exact mayLeave_raise_overflow (by decide) (not_fits_of_overCap hover) s 0
  · exact .inl rfl

theorem execEncode_mayLeave {s t : State} (h : execEncode s = .next t) : MayLeave [1, 2, 3, 4, 5, 8] s t := by
  refine .of_command ?_ h
  split
  next => exact mayLeave_raise (by decide) (by decide) s.dropEntry 0
  next e _ =>
    split_ifs
    · exact mayLeave_raise (by decide) (by decide) (s.loadEntry e) 0
    split
    next f hf =>
      unfold State.fail
      obtain hk | hk | hk | ⟨hk, n, hn⟩ := encodePayload_error hf <;> rw [hk]
      · exact mayLeave_raise (by decide) (by decide) _ f.info
      · exact mayLeave_raise (by decide) (by decide) _ f.info
      · exact mayLeave_raise (by decide) (by decide) _ f.info
      · exact mayLeave_raise_overflow (by decide) hn _ f.info
    next => exact .inl rfl

theorem execLookup_mayLeave {s t : State} (h : execLookup s = .next t) : MayLeave [1] s t := by
  refine .of_command ?_ h
  split
  · exact mayLeave_raise (by decide) (by decide) s.dropEntry 0
  · exact .inl rfl

/-- A command that needs an entry and then writes only the remainder registers (R173, R175). -/
theorem needsEntry_mayLeave {s t : State} {r : List Codeword}
    (h : command s (if s.capvalid = false then s.raise .notConfigured 0 else s.setRem r) = .next t) :
    MayLeave [9] s t := by
  refine .of_command ?_ h
  split_ifs
  · exact mayLeave_raise (by decide) (by decide) s 0
  · exact .inl rfl

/-- A well-formed command leaves no error code but the recorded one, none, or one R211 gives it; code 8 only where
some length does not fit. -/
theorem exec_mayLeave {i : Instr} {s t : State} (hwf : i.wf = true) (h : exec i s = .next t) :
    MayLeave (mayRaise i) s t := by
  cases i with
  | nop => cases h; exact .inl rfl
  | bbclr d => exact .of_command (body := s.setBuf d []) (.inl rfl) h
  | bbappv d w imm =>
    have hw : w.toNat ≤ 16 := of_decide_eq_true hwf
    have h' : execBbappv d w imm s = .next t := h
    rw [execBbappv, if_pos hw] at h'
    exact .of_command (mayLeave_storeBuf (List.mem_singleton_self 8) d _) h'
  | bbcat d src => exact .of_command (mayLeave_storeBuf (List.mem_singleton_self 8) d _) h
  | bbtocw src => exact .of_command (body := s.setCw (toCodewords (s.buf src))) (.inl rfl) h
  | lookup => exact execLookup_mayLeave h
  | numenc d => exact execNumenc_mayLeave h
  | pad d => exact execPad_mayLeave h
  | rsclr => exact needsEntry_mayLeave h
  | rsstep c => exact .of_command (body := s.setRem (absorb s.rem c)) (.inl rfl) h
  | rsgen => exact needsEntry_mayLeave h
  | bbappcw d => exact .of_command (mayLeave_storeBuf (List.mem_singleton_self 8) d _) h
  | encode => exact execEncode_mayLeave h
  | clrerr => cases h; exact .inr (.inl rfl)
  | reservedE low => exact illegalCommand_mayLeave h
  | reset => cases h; exact .inr (.inl rfl)

/-- The codes of R211 but 6, `InternalInvariant`, which no command raises (R217). -/
def recordedCodes : List (BitVec 4) := [1, 2, 3, 4, 5, 7, 8, 9]

theorem mayRaise_subset_recordedCodes (i : Instr) : mayRaise i ⊆ recordedCodes := by
  cases i <;> simp [mayRaise, recordedCodes]

theorem runWord_mayLeave {w : Word} {s t : State} (h : runWord w s = .next t) : MayLeave recordedCodes s t := by
  obtain ⟨i, -, hwf, hexec⟩ | hill := runWord_next h
  · exact (exec_mayLeave hwf hexec).of_subset (mayRaise_subset_recordedCodes i)
  · exact (illegalCommand_mayLeave hill).of_subset (by decide)

/-- A host access leaves the record alone, clears it, or is a command's. -/
theorem HostEffect.mayLeave {u t : State} (h : HostEffect u t) : MayLeave recordedCodes u t := by
  cases h with
  | command w hw => exact runWord_mayLeave hw
  | hardReset => exact .inr (.inl rfl)
  | _ => exact .inl rfl

/-- The records a step can leave: no step records code 6, and code 8 only where some length does not fit. -/
theorem step_mayLeave {s t : State} (h : step s = .next t) : MayLeave recordedCodes s t := by
  obtain ⟨_, rest, -, heff⟩ := step_effect h
  exact heff.mayLeave

theorem fits_of_unbounded {cfg : Config} (h : cfg.bbcap = none) (n : Nat) : Fits cfg n := by
  intro c hc
  rw [h] at hc
  cases hc

/-- Settles O48: a step records code 8 only where some length does not fit, and with `BBCAP` unbounded every length
fits. -/
theorem unboundedBuffersNeverOverflow : Obligations.UnboundedBuffersNeverOverflow := by
  intro s t hcap hstep hne h8
  obtain hsame | hzero | ⟨-, hover⟩ := step_mayLeave hstep
  · exact hne (hsame.symm.trans h8)
  · exact absurd (hzero.symm.trans h8) (by decide)
  · obtain ⟨n, hn⟩ := hover h8
    exact hn (fits_of_unbounded hcap n)

end Sys2Proof.Machine

/-! PROOFS. Which parts of the state a command can write (R10, R21, R24, R33, R35, R36, R224). -/
namespace Sys2Proof.Machine

/-- `t` comes from `s` by the named operations that command `i` may perform, one after another. -/
inductive Writes (i : Instr) (s : State) : State → Prop
  | refl : Writes i s s
  /-- every command may raise (R211 says which code) -/
  | raise {t : State} {e : ErrKind} {info : BitVec 16} (h : Writes i s t) : Writes i s (t.raise e info)
  | clearErr {t : State} (h : Writes i s t) : Writes i s t.clearErr
  | setBuf {t : State} {d : BitVec 2} {x : Bits} (hd : mayWriteBuf i d) (h : Writes i s t) : Writes i s (t.setBuf d x)
  | setCw {t : State} (hi : (∃ d, i = .bbtocw d) ∨ i = .encode) {c : List Codeword} (h : Writes i s t) :
      Writes i s (t.setCw c)
  | setRem {t : State} (hi : i = .rsclr ∨ (∃ c, i = .rsstep c) ∨ i = .rsgen ∨ i = .encode) {r : List Codeword}
      (h : Writes i s t) : Writes i s (t.setRem r)
  | loadEntry {t : State} (hi : i = .lookup ∨ i = .encode) {e : CapEntry} (h : Writes i s t) :
      Writes i s (t.loadEntry e)
  | dropEntry {t : State} (hi : i = .lookup ∨ i = .encode) (h : Writes i s t) : Writes i s t.dropEntry
  | resetCommand {t : State} (hi : i = .reset) (h : Writes i s t) : Writes i s t.resetCommand

section
variable {i : Instr} {s t : State}

/-! ### Every command performs only operations it may perform -/

/-- The entry test only adds the case that nothing is written. -/
theorem Writes.of_command {body : State} (hb : Writes i s body) (h : command s body = .next t) : Writes i s t := by
  obtain ⟨-, rfl⟩ | ⟨-, rfl⟩ := command_inv h
  · exact hb
  · exact .refl

theorem writes_illegalCommand (h : illegalCommand s = .next t) : Writes i s t :=
  .of_command (.raise .refl) h

theorem writes_storeBuf {d : BitVec 2} {x : Bits} (hd : mayWriteBuf i d) : Writes i s (s.storeBuf d x) := by
  by_cases hfit : Fits s.cfg x.length
  · rw [storeBuf_fits hfit]; exact .setBuf hd .refl
  · rw [storeBuf_over hfit]; exact .raise .refl

theorem writes_lookupFailed (hi : i = .lookup ∨ i = .encode) : Writes i s s.lookupFailed :=
  .raise (.dropEntry hi .refl)

theorem execBbappv_writes {d : BitVec 2} {w : BitVec 5} {imm : BitVec 16} (h : execBbappv d w imm s = .next t) :
    Writes (.bbappv d w imm) s t := by
  unfold execBbappv at h
  split at h
  · exact .of_command (writes_storeBuf rfl) h
  · exact writes_illegalCommand h

theorem execLookup_writes (h : execLookup s = .next t) : Writes .lookup s t := by
  refine .of_command ?_ h
  split
  next => exact writes_lookupFailed (.inl rfl)
  next => exact .loadEntry (.inl rfl) .refl

theorem execNumenc_writes {d : BitVec 2} (h : execNumenc d s = .next t) : Writes (.numenc d) s t := by
  refine .of_command ?_ h
  split_ifs
  · exact .raise .refl
  · exact .raise .refl
  split
  next => exact .raise .refl
  next => exact writes_storeBuf rfl

theorem execPad_writes {d : BitVec 2} (h : execPad d s = .next t) : Writes (.pad d) s t := by
  refine .of_command ?_ h
  split_ifs
  · exact .raise .refl
  · exact .raise .refl
  · exact .raise .refl
  · exact .setBuf rfl .refl

/-- A command that needs an entry and then writes only the remainder registers (R173, R175). -/
theorem needsEntry_writes {r : List Codeword} (hi : i = .rsclr ∨ i = .rsgen)
    (h : command s (if s.capvalid = false then s.raise .notConfigured 0 else s.setRem r) = .next t) :
    Writes i s t := by
  refine .of_command ?_ h
  split_ifs
  · exact .raise .refl
  · exact .setRem (hi.imp_right fun hgen => .inr (.inl hgen)) .refl

/-- `ENCODE` writes the entry first, and after it raises or commits (R194, R225). -/
theorem execEncode_writes (h : execEncode s = .next t) : Writes .encode s t := by
  refine .of_command ?_ h
  split
  next => exact writes_lookupFailed (.inr rfl)
  next e _ =>
    have hload : Writes .encode s (s.loadEntry e) := .loadEntry (.inr rfl) .refl
    split_ifs
    · exact .raise hload
    split
    next => exact .raise hload
    next =>
      exact .setRem (.inr (.inr (.inr rfl))) (.setCw (.inr rfl) (.setBuf rfl hload))

/-- Whatever a command does, it does by the operations it may perform. -/
theorem exec_writes (h : exec i s = .next t) : Writes i s t := by
  cases i with
  | nop => cases h; exact .refl
  | bbclr d => exact .of_command (.setBuf rfl .refl) h
  | bbappv d w imm => exact execBbappv_writes h
  | bbcat d src => exact .of_command (writes_storeBuf rfl) h
  | bbtocw src => exact .of_command (.setCw (.inl ⟨src, rfl⟩) .refl) h
  | lookup => exact execLookup_writes h
  | numenc d => exact execNumenc_writes h
  | pad d => exact execPad_writes h
  | rsclr => exact needsEntry_writes (.inl rfl) h
  | rsstep c => exact .of_command (.setRem (.inr (.inl ⟨c, rfl⟩)) .refl) h
  | rsgen => exact needsEntry_writes (.inr rfl) h
  | bbappcw d => exact .of_command (writes_storeBuf rfl) h
  | encode => exact execEncode_writes h
  | clrerr => cases h; exact .clearErr .refl
  | reservedE low => exact writes_illegalCommand h
  | reset => cases h; exact .resetCommand rfl .refl

/-! ### What the operations of commands leave unchanged -/

/-- No operation of a command writes the payload, the parameters or the host's side. -/
theorem Writes.payload_and_host (h : Writes i s t) :
    t.pay = s.pay ∧ t.payEpoch = s.payEpoch ∧ t.cfg = s.cfg ∧ t.host = s.host ∧ t.reply = s.reply := by
  induction h with
  | refl => exact ⟨rfl, rfl, rfl, rfl, rfl⟩
  | raise _ ih | clearErr _ ih | setBuf _ _ ih | setCw _ _ ih | setRem _ _ ih | loadEntry _ _ ih
  | dropEntry _ _ ih | resetCommand _ _ ih => exact ih

theorem Writes.inputs (h : Writes i s t) (hreset : i ≠ .reset) :
    t.version = s.version ∧ t.mode = s.mode ∧ t.plen = s.plen ∧ t.bbptr = s.bbptr ∧ t.cwptr = s.cwptr
      ∧ t.remptr = s.remptr := by
  induction h with
  | refl => exact ⟨rfl, rfl, rfl, rfl, rfl, rfl⟩
  | resetCommand hi => exact absurd hi hreset
  | raise _ ih | clearErr _ ih | setBuf _ _ ih | setCw _ _ ih | setRem _ _ ih | loadEntry _ _ ih
  | dropEntry _ _ ih => exact ih

theorem Writes.buf (h : Writes i s t) {e : BitVec 2} (he : ¬ mayWriteBuf i e) : t.buf e = s.buf e := by
  induction h with
  | refl => rfl
  | @setBuf u d x hd _ ih =>
    have hne : e ≠ d := fun hed => he (hed ▸ hd)
    rw [State.buf_setBuf, if_neg hne, ih]
  | resetCommand hi =>
    subst hi
    exact absurd trivial he
  | raise _ ih | clearErr _ ih | setCw _ _ ih | setRem _ _ ih | loadEntry _ _ ih | dropEntry _ _ ih =>
    exact ih

theorem Writes.cw (h : Writes i s t) (htocw : ∀ d, i ≠ .bbtocw d) (hencode : i ≠ .encode) (hreset : i ≠ .reset) :
    t.cw = s.cw := by
  induction h with
  | refl => rfl
  | setCw hi =>
    obtain ⟨d, hi⟩ | hi := hi
    · exact absurd hi (htocw d)
    · exact absurd hi hencode
  | resetCommand hi => exact absurd hi hreset
  | raise _ ih | clearErr _ ih | setBuf _ _ ih | setRem _ _ ih | loadEntry _ _ ih | dropEntry _ _ ih =>
    exact ih

theorem Writes.rem (h : Writes i s t) (hclr : i ≠ .rsclr) (hstep : ∀ c, i ≠ .rsstep c) (hgen : i ≠ .rsgen)
    (hencode : i ≠ .encode) (hreset : i ≠ .reset) : t.rem = s.rem := by
  induction h with
  | refl => rfl
  | setRem hi =>
    obtain hi | ⟨c, hi⟩ | hi | hi := hi
    · exact absurd hi hclr
    · exact absurd hi (hstep c)
    · exact absurd hi hgen
    · exact absurd hi hencode
  | resetCommand hi => exact absurd hi hreset
  | raise _ ih | clearErr _ ih | setBuf _ _ ih | setCw _ _ ih | loadEntry _ _ ih | dropEntry _ _ ih =>
    exact ih

theorem Writes.entry (h : Writes i s t) (hlookup : i ≠ .lookup) (hencode : i ≠ .encode) (hreset : i ≠ .reset) :
    t.capr = s.capr ∧ t.capvalid = s.capvalid := by
  induction h with
  | refl => exact ⟨rfl, rfl⟩
  | loadEntry hi | dropEntry hi => exact (hi.elim hlookup hencode).elim
  | resetCommand hi => exact absurd hi hreset
  | raise _ ih | clearErr _ ih | setBuf _ _ ih | setCw _ _ ih | setRem _ _ ih => exact ih

end

/-- Settles O49: no operation a command performs writes these parts, and only `RESET` performs the one that clears
the input registers. -/
theorem commandsLeaveTheInputsAlone : Obligations.CommandsLeaveTheInputsAlone := by
  intro i s t h
  have hw := exec_writes h
  obtain ⟨hpay, hepoch, hcfg, hhost, hreply⟩ := hw.payload_and_host
  exact ⟨payByte_congr hpay hepoch, hpay, hepoch, hcfg, hhost, hreply, hw.inputs⟩

/-- Settles O50: each file is written only by an operation that the commands named for it perform. -/
theorem commandsWriteOnlyTheirRegisters : Obligations.CommandsWriteOnlyTheirRegisters := by
  intro i s t h
  have hw := exec_writes h
  exact ⟨fun _ => hw.buf, hw.cw, hw.rem, hw.entry⟩

end Sys2Proof.Machine

/-! PROOFS. The step at one legal host access: payload writes, commands, register writes (R26, R30 to R38, R42, R69). -/
namespace Sys2Proof.Machine

/-- A legal payload write as a step (R69). -/
theorem step_payWrite {s : State} {rest : List Access} {a : Nat} {v : Byte} (ha : a < 2 ^ s.cfg.payAw)
    (h : s.host = .payWrite 8 a v :: rest) : step s = .next ((s.setHost rest).writePay a v) := by
  rw [step_cons h]
  exact payAccess_legal ha _

/-- A legal register write as a step (R69). -/
theorem step_regWrite {s : State} {rest : List Access} {off : Nat} {v : Word} (halign : off % 4 = 0)
    (hrange : off ≤ 0x1FFC) (h : s.host = .regWrite 32 off v :: rest) :
    step s = writeOffset (s.setHost rest) off v := by
  rw [step_cons h]
  exact regAccess_legal halign hrange _

/-! ### Payload writes -/

/-- The payload after a write: the byte written at its address, every other byte as before (R66). -/
theorem State.payByte_writePay (s : State) (a b : Nat) (v : Byte) :
    (s.writePay a v).payByte b = if b = a then v else s.payByte b := by
  simp only [State.payByte, State.writePay_pay, State.writePay_payEpoch, memFind_memInsert]
  split <;> rfl

/-- Settles O56: the step is `writePay`, whose reads and canonical form are `payByte_writePay` and
`memWf_memInsert`. -/
theorem payloadReadAfterWrite : Obligations.PayloadReadAfterWrite := by
  intro s a v rest ha hhost
  refine ⟨_, step_payWrite ha hhost, ?_, fun b hb => ?_, memWf_memInsert a v s.pay, rfl⟩
  · rw [State.payByte_writePay, if_pos rfl]
  · rw [State.payByte_writePay, if_neg hb]
    rfl

/-! ### Command words -/

theorem runWord_ok {w : Word} {i : Instr} (h : decode w = .ok i) (s : State) : runWord w s = exec i s := by
  simp only [runWord, h]

theorem runWord_error {w : Word} {r : Illegal} (h : decode w = .error r) (s : State) :
    runWord w s = illegalCommand s := by
  simp only [runWord, h]

/-- A write to `CMD` as a step (R26). -/
theorem step_cmdWrite {s : State} {w : Word} {rest : List Access} (h : s.host = .regWrite 32 0x00 w :: rest) :
    step s = runWord w (s.setHost rest) :=
  step_regWrite (by decide) (by decide) h

/-- Settles O6: the step runs the word; `runWord` on a decoded and on a rejected word does the rest. -/
theorem stepRunsTheDecodedCommand : Obligations.StepRunsTheDecodedCommand := by
  intro s w rest hhost
  have hstep := step_cmdWrite hhost
  refine ⟨hstep, fun i hi => ⟨decode_wf hi, hstep.trans (runWord_ok hi _)⟩, fun r hr herr => ?_, fun r hr herr => ?_⟩
  · rw [hstep, runWord_error hr]
    exact command_clear (s := s.setHost rest) herr _
  · rw [hstep, runWord_error hr]
    exact command_error (s := s.setHost rest) herr _

/-! ### Writes of the read-write registers -/

theorem keepLow_toNat {w : Nat} (hw : w ≤ 16) (v : Word) : (keepLow w v).toNat = v.toNat % 2 ^ w := by
  have hpow : 2 ^ w ≤ 2 ^ 16 := Nat.pow_le_pow_right (by decide) hw
  have hlt : v.toNat % 2 ^ w < 2 ^ w := Nat.mod_lt _ (Nat.two_pow_pos w)
  rw [keepLow, BitVec.toNat_ofNat, Nat.mod_eq_of_lt (by omega)]

/-- A word cut to a register's width and read back has the low bits it had. -/
theorem toNat_widen_setWidth (v : Word) {n : Nat} (hn : n ≤ 32) :
    ((v.setWidth n).setWidth 32).toNat = v.toNat % 2 ^ n := by
  rw [BitVec.toNat_setWidth_of_le hn, BitVec.toNat_setWidth]

theorem toNat_widen_keepLow {w : Nat} (hw : w ≤ 16) (v : Word) :
    ((keepLow w v).setWidth 32).toNat = v.toNat % 2 ^ w := by
  rw [BitVec.toNat_setWidth_of_le (by decide), keepLow_toNat hw]

/-- Settles O51: each write is the named operation of its register, which cuts the word to the register's width; the
register reads as what it holds, widened. -/
theorem hostWritesStoreTheLowBits : Obligations.HostWritesStoreTheLowBits := by
  intro s v rest
  refine ⟨fun hw hhost => ?version, fun hhost => ?mode, fun hw hhost => ?plen, fun hhost => ?bbptr,
    fun hhost => ?cwptr, fun hhost => ?remptr⟩
  case version =>
    exact ⟨_, step_regWrite rfl (by decide) hhost, keepLow_toNat hw v, toNat_widen_keepLow hw v, rfl,
      payByte_congr rfl rfl⟩
  case mode =>
    exact ⟨_, step_regWrite rfl (by decide) hhost, BitVec.toNat_setWidth 2 v, toNat_widen_setWidth v (by decide), rfl,
      payByte_congr rfl rfl⟩
  case plen =>
    exact ⟨_, step_regWrite rfl (by decide) hhost, keepLow_toNat hw v, toNat_widen_keepLow hw v, rfl⟩
  case bbptr =>
    exact ⟨_, step_regWrite rfl (by decide) hhost, BitVec.toNat_setWidth 18 v, toNat_widen_setWidth v (by decide), rfl⟩
  case cwptr =>
    exact ⟨_, step_regWrite rfl (by decide) hhost, BitVec.toNat_setWidth 16 v, toNat_widen_setWidth v (by decide), rfl⟩
  case remptr =>
    exact ⟨_, step_regWrite rfl (by decide) hhost, BitVec.toNat_setWidth 8 v, toNat_widen_setWidth v (by decide), rfl⟩

end Sys2Proof.Machine

/-! PROOFS. What the registers read, and the offsets that hold none or ignore a write (R22, R25 to R36, R42). -/
namespace Sys2Proof.Machine

/-! ### Fields of a word (R80) -/

theorem field_zero {n : Nat} (x : BitVec n) : field x 0 = x.setWidth 32 := by simp [field]

theorem getLsbD_field {n : Nat} (x : BitVec n) (lo k : Nat) :
    (field x lo).getLsbD k = (decide (lo ≤ k) && decide (k < 32) && x.getLsbD (k - lo)) := by
  by_cases hk : k < 32 <;> by_cases hlo : lo ≤ k <;> simp [field, hk, hlo]

/-- A field is read back at its own position. -/
theorem extractLsb'_field {n : Nat} (x : BitVec n) {lo : Nat} (h : lo + n ≤ 32) :
    (field x lo).extractLsb' lo n = x := by
  apply BitVec.eq_of_getLsbD_eq
  intro k hk
  have hlt : lo + k < 32 := by omega
  rw [BitVec.getLsbD_extractLsb', getLsbD_field, Nat.add_sub_cancel_left]
  simp [hk, hlt]

/-- A field leaves the bits below and above it 0. -/
theorem extractLsb'_field_disjoint {n : Nat} (x : BitVec n) {lo start len : Nat}
    (h : start + len ≤ lo ∨ lo + n ≤ start) : (field x lo).extractLsb' start len = 0 := by
  apply BitVec.eq_of_getLsbD_eq
  intro k hk
  rw [BitVec.getLsbD_extractLsb', getLsbD_field]
  obtain hbelow | habove := h
  · have hlo : ¬ lo ≤ start + k := by omega
    simp [hlo]
  · have hge : n ≤ start + k - lo := by omega
    simp [BitVec.getLsbD_of_ge _ _ hge]

/-! ### Register images -/

/-- A count cut to the low bits of a register below bit 32 (R6). -/
theorem toNat_ofNat_mod (n : Nat) {m : Nat} (hpos : 0 < m) (hm : m ≤ 2 ^ 32) :
    (BitVec.ofNat 32 (n % m)).toNat = n % m := by
  rw [BitVec.toNat_ofNat, Nat.mod_eq_of_lt ((Nat.mod_lt n hpos).trans_le hm)]

theorem lowCount_toNat (n : Nat) : (lowCount n).toNat = n % 65536 := toNat_ofNat_mod n (by decide) (by decide)

theorem readOffset_bblen (s : State) (d : BitVec 2) :
    readOffset s (0x40 + 4 * d.toNat) = lowCount (s.buf d).length := by
  have hd : d = 0 ∨ d = 1 ∨ d = 2 ∨ d = 3 := by revert d; decide
  obtain rfl | rfl | rfl | rfl := hd <;> rfl

theorem getLsbD_field_flagBit (b : Bool) {lo : Nat} (hlo : lo < 32) (k : Nat) :
    (field (flagBit b) lo).getLsbD k = (decide (k = lo) && b) := by
  rw [getLsbD_field, flagBit, BitVec.getLsbD_ofBool]
  obtain hlt | rfl | hgt := Nat.lt_trichotomy k lo
  · simp [hlt, hlt.ne]
  · simp [hlo]
  · have hne : k - lo ≠ 0 := by omega
    simp [hne, hgt.ne']

/-- `STATUS` bit by bit: bit 0 `ERR`, bit 1 `CAPVALID`, no other (R27). -/
theorem getLsbD_status (s : State) (k : Nat) :
    s.status.getLsbD k = ((decide (k = 1) && s.capvalid) || (decide (k = 0) && s.err)) := by
  rw [State.status, BitVec.getLsbD_or, getLsbD_field_flagBit _ (by decide), getLsbD_field_flagBit _ (by decide)]

theorem err_eq_decide (s : State) : s.err = decide (s.errcode ≠ 0) := by
  rw [State.err, bne, Bool.beq_eq_decide_eq, decide_not]

/-- `CAP_MI` has the indicator in bits 7:0 and its width in bits 11:8 (R25). -/
theorem capMi_fields (s : State) :
    (readReg s .capMi).extractLsb' 0 8 = s.capr.miBits ∧ (readReg s .capMi).extractLsb' 8 4 = s.capr.miWidth
      ∧ (readReg s .capMi).extractLsb' 12 20 = 0 := by
  simp [readReg, BitVec.extractLsb'_or, extractLsb'_field, extractLsb'_field_disjoint]

/-- `CAP_PAD` has its four fields with bits 15:14 between them 0 (R25). -/
theorem capPad_fields (s : State) :
    (readReg s .capPad).extractLsb' 0 4 = s.capr.padTerm ∧ (readReg s .capPad).extractLsb' 4 5 = s.capr.padAlign
      ∧ (readReg s .capPad).extractLsb' 9 5 = s.capr.patLen ∧ (readReg s .capPad).extractLsb' 14 2 = 0
      ∧ (readReg s .capPad).extractLsb' 16 16 = s.capr.patBits := by
  simp [readReg, BitVec.extractLsb'_or, extractLsb'_field, extractLsb'_field_disjoint]

/-- Settles O53: `STATUS` bit by bit, the registers of several fields field by field, every other one widened. -/
theorem registerImages : Obligations.RegisterImages := by
  intro s
  refine ⟨⟨?_, ?_, fun k hk => ?_⟩, BitVec.toNat_setWidth_of_le (by decide), BitVec.toNat_setWidth_of_le (by decide),
    fun d => ?_, BitVec.toNat_setWidth_of_le (by decide), capMi_fields s, BitVec.toNat_setWidth_of_le (by decide),
    BitVec.toNat_setWidth_of_le (by decide), BitVec.toNat_setWidth_of_le (by decide), capPad_fields s⟩
  · exact (getLsbD_status s 0).trans (by simp [err_eq_decide])
  · exact (getLsbD_status s 1).trans (by simp)
  · have h0 : k ≠ 0 := by omega
    have h1 : k ≠ 1 := by omega
    exact (getLsbD_status s k).trans (by simp [h0, h1])
  · rw [readOffset_bblen, lowCount_toNat]

/-! ### The read ports -/

theorem elemRead_some {l : List Codeword} {i : Nat} {c : Codeword} (h : l[i]? = some c) :
    elemRead l i = 0x80000000 ||| c.setWidth 32 := by
  simp only [elemRead, h, field_zero]
  rfl

theorem elemRead_none {l : List Codeword} {i : Nat} (h : l.length ≤ i) : elemRead l i = 0 := by
  simp only [elemRead, List.getElem?_eq_none h]

theorem bitRead_some {b : Bits} {i : Nat} {x : Bool} (h : b[i]? = some x) :
    bitRead b i = 0x80000000 ||| (if x then 1 else 0) := by
  simp only [bitRead, h]
  cases x <;> rfl

theorem bitRead_none {b : Bits} {i : Nat} (h : b.length ≤ i) : bitRead b i = 0 := by
  simp only [bitRead, List.getElem?_eq_none h]

/-- Settles O54: each port is an indexed read, and each count register the low bits of a length. -/
theorem readPortsShowTheElement : Obligations.ReadPortsShowTheElement := by
  intro s
  refine ⟨?_, fun _ => elemRead_some, elemRead_none, fun _ => elemRead_some, elemRead_none, lowCount_toNat s.cwn,
    toNat_ofNat_mod s.remn (by decide) (by decide)⟩
  rintro d i rfl rfl
  exact ⟨fun _ => bitRead_some, bitRead_none⟩

/-! ### Offsets that hold no register, and registers the host only reads -/

theorem regFind_eq_none {m : List (Nat × Reg)} {off : Nat} (h : ∀ p ∈ m, off ≠ p.1) : regFind m off = none := by
  induction m with
  | nil => rfl
  | cons p m ih =>
    obtain ⟨hp, hm⟩ := List.forall_mem_cons.1 h
    rw [regFind, if_neg hp, ih hm]

/-- The last register of the map is `REMDATA` (R25). -/
theorem regMap_offset_le : ∀ p ∈ regMap, p.1 ≤ 0x6C := by decide

/-- Three gaps of the map, and everything after its last register (R42). -/
theorem regAt_reserved {off : Nat} (h : IsReservedOffset off) : regAt off = none := by
  obtain rfl | rfl | rfl | ⟨hlo, -⟩ := h
  · rfl
  · rfl
  · rfl
  · exact regFind_eq_none fun p hp => by
      have hle := regMap_offset_le p hp
      omega

theorem readOffset_reserved {off : Nat} (h : IsReservedOffset off) (s : State) : readOffset s off = 0 := by
  simp only [readOffset, regAt_reserved h]

theorem writeOffset_reserved {off : Nat} (h : IsReservedOffset off) (s : State) (v : Word) :
    writeOffset s off v = .next s := by
  simp only [writeOffset, regAt_reserved h]

/-- At each offset of the list stands a register that `writeReg` leaves alone. -/
theorem writeOffset_readOnly {off : Nat} (h : IsReadOnlyOffset off) (s : State) (v : Word) :
    writeOffset s off v = .next s := by
  unfold IsReadOnlyOffset at h
  fin_cases h <;> rfl

/-- Settles O55: no register stands at a reserved offset, and a write to a read-only one is ignored. -/
theorem reservedAndReadOnlyOffsets : Obligations.ReservedAndReadOnlyOffsets := by
  intro s off v
  refine ⟨fun h => readOffset_reserved h s, fun h => ?_, rfl⟩
  have hignored (u : State) : writeOffset u off v = .next u :=
    h.elim (writeOffset_reserved · u v) (writeOffset_readOnly · u v)
  exact ⟨hignored s, fun rest halign hrange hhost =>
    (step_regWrite halign hrange hhost).trans (hignored (s.setHost rest))⟩

end Sys2Proof.Machine

/-! PROOFS. Which bit of which codeword each bit of a sequence becomes (R61, R104). -/
namespace Sys2Proof.Machine

/-- Bit `i` of a sequence is bit `len - 1 - i` of the value it spells. -/
theorem getElem?_eq_testBit_val {b : Bits} {i : Nat} (h : i < b.length) :
    b[i]? = some ((val b).testBit (b.length - 1 - i)) := by
  calc b[i]? = (bits (val b) b.length)[i]? := by rw [bits_val]
    _ = some ((val b).testBit (b.length - 1 - i)) := by
      rw [List.getElem?_eq_getElem (by rwa [bits_length]), bits_getElem]

theorem octet_length (b : Bits) (j : Nat) : (octet b j).length = min 8 (b.length - 8 * j) := by simp [octet]

theorem octet_getElem? (b : Bits) (j : Nat) {t : Nat} (ht : t < 8) : (octet b j)[t]? = b[8 * j + t]? := by
  rw [octet, List.getElem?_take_of_lt ht, List.getElem?_drop]

theorem toCodewords_getElem? {b : Bits} {j : Nat} (hj : j < ceilDiv8 b.length) :
    (toCodewords b)[j]? = some (BitVec.ofNat 8 (val (octet b j))) := by
  simp [toCodewords, hj]

/-- Codeword `j` holds the `r` bits of group `j` in its bits `r - 1` to 0, the first one highest, and zeros above
them (R61); this covers the full groups, `r = 8`, and a partial last one. -/
theorem codeword_of_group {b : Bits} {j r : Nat} (hr : (octet b j).length = r) (hpos : 0 < r) :
    ∃ c, (toCodewords b)[j]? = some c
      ∧ (∀ t, t < r → b[8 * j + t]? = some (c.getLsbD (r - 1 - t)))
      ∧ ∀ k, r ≤ k → c.getLsbD k = false := by
  have hlen : min 8 (b.length - 8 * j) = r := (octet_length b j).symm.trans hr
  refine ⟨_, toCodewords_getElem? (by unfold ceilDiv8; omega), fun t ht => ?bit, fun k hk => ?zero⟩
  case bit =>
    have hlow : r - 1 - t < 8 := by omega
    rw [← octet_getElem? b j (by omega), getElem?_eq_testBit_val (by rwa [hr]), hr, BitVec.getLsbD_ofNat]
    simp [hlow]
  case zero =>
    have hbit : (val (octet b j)).testBit k = false :=
      Nat.testBit_lt_two_pow ((val_lt _).trans_le (Nat.pow_le_pow_right (by decide) (hr ▸ hk)))
    rw [BitVec.getLsbD_ofNat, hbit, Bool.and_false]

/-- Settles O10: a full group has 8 bits and a partial last one `len mod 8`; both are `codeword_of_group`. -/
theorem codewordBitPositions : Obligations.CodewordBitPositions := by
  intro b
  refine ⟨fun j t hj ht => ?full, fun hmod => ?last, toCodewords_length b, fun c => rfl⟩
  case full =>
    have hlen : (octet b j).length = 8 := by rw [octet_length]; omega
    obtain ⟨c, hc, hbits, -⟩ := codeword_of_group hlen (by decide)
    exact ⟨c, hc, hbits t (by omega)⟩
  case last =>
    have hlen : (octet b (b.length / 8)).length = b.length % 8 := by rw [octet_length]; omega
    exact codeword_of_group hlen (by omega)

end Sys2Proof.Machine

/-! PROOFS. Accesses that stop, and reads (R13, R63, R66; logs 3, 8, 9). -/
namespace Sys2Proof.Machine

/-! ### Accesses that stop -/

theorem regAccess_width {width : Nat} (h : width ≠ 32) (off : Nat) (k : Host.Outcome State Fault Refusal) :
    regAccess width off k = .refused (.accessWidth width) := if_pos h

theorem regAccess_unaligned {off : Nat} (h : off % 4 ≠ 0) (k : Host.Outcome State Fault Refusal) :
    regAccess 32 off k = .refused (.unalignedOffset off) := by
  rw [regAccess, if_neg (by decide), if_pos h]

theorem regAccess_outside {off : Nat} (halign : off % 4 = 0) (h : 0x1FFC < off)
    (k : Host.Outcome State Fault Refusal) : regAccess 32 off k = .fault (.outsideRegisterSpace off) := by
  rw [regAccess, if_neg (by decide), if_neg (not_not_intro halign), if_pos h]

theorem payAccess_width {width : Nat} (h : width ≠ 8) (cfg : Config) (a : Nat)
    (k : Host.Outcome State Fault Refusal) : payAccess cfg width a k = .refused (.accessWidth width) := if_pos h

theorem payAccess_outside {cfg : Config} {a : Nat} (h : 2 ^ cfg.payAw ≤ a) (k : Host.Outcome State Fault Refusal) :
    payAccess cfg 8 a k = .refused (.payloadAddress a) := by
  rw [payAccess, if_neg (by decide), if_pos h]

/-- A register access of either direction goes through the tests of `regAccess`. -/
theorem step_regAccess {s : State} {rest : List Access} {width off : Nat} {v : Word}
    (h : s.host = .regRead width off :: rest ∨ s.host = .regWrite width off v :: rest) :
    ∃ k, step s = regAccess width off k := by
  obtain h | h := h <;> exact ⟨_, step_cons h⟩

/-- A payload access of either direction goes through the tests of `payAccess`. -/
theorem step_payAccess {s : State} {rest : List Access} {width a : Nat} {v : Byte}
    (h : s.host = .payRead width a :: rest ∨ s.host = .payWrite width a v :: rest) :
    ∃ k, step s = payAccess s.cfg width a k := by
  obtain h | h := h <;> exact ⟨_, step_cons h⟩

/-- Settles O7: each port's tests, in their order, whatever the access would have done. -/
theorem illegalAccessesStopByName : Obligations.IllegalAccessesStopByName := by
  intro s rest width off a v b
  refine ⟨step_nil, fun hw hhost => ?regWidth, fun halign hhost => ?unaligned, fun halign hout hhost => ?regOutside,
    fun hw hhost => ?payWidth, fun hout hhost => ?payOutside⟩
  case regWidth =>
    obtain ⟨k, hk⟩ := step_regAccess hhost
    exact hk.trans (regAccess_width hw off k)
  case unaligned =>
    obtain ⟨k, hk⟩ := step_regAccess hhost
    exact hk.trans (regAccess_unaligned halign k)
  case regOutside =>
    obtain ⟨k, hk⟩ := step_regAccess hhost
    exact hk.trans (regAccess_outside halign hout k)
  case payWidth =>
    obtain ⟨k, hk⟩ := step_payAccess hhost
    exact hk.trans (payAccess_width hw s.cfg a k)
  case payOutside =>
    obtain ⟨k, hk⟩ := step_payAccess hhost
    exact hk.trans (payAccess_outside hout k)

/-! ### Reads -/

/-- No register shows the host's list (R25). -/
theorem readReg_setHost (s : State) (rest : List Access) (r : Reg) : readReg (s.setHost rest) r = readReg s r := by
  cases r <;> rfl

/-- No register shows the data last read (R25). -/
theorem readReg_setReply (s : State) (d : Reply) (r : Reg) : readReg (s.setReply d) r = readReg s r := by
  cases r <;> rfl

@[simp] theorem readOffset_setHost (s : State) (rest : List Access) (off : Nat) :
    readOffset (s.setHost rest) off = readOffset s off := by
  simp only [readOffset, readReg_setHost]

@[simp] theorem readOffset_setReply (s : State) (d : Reply) (off : Nat) :
    readOffset (s.setReply d) off = readOffset s off := by
  simp only [readOffset, readReg_setReply]

/-- A legal register read as a step (R66, R69). -/
theorem step_regRead {s : State} {rest : List Access} {off : Nat} (halign : off % 4 = 0) (hrange : off ≤ 0x1FFC)
    (h : s.host = .regRead 32 off :: rest) :
    step s = .next ((s.setHost rest).setReply (.word (readOffset s off))) := by
  rw [step_cons h, ← readOffset_setHost s rest off]
  exact regAccess_legal halign hrange _

/-- A legal payload read as a step (R66, R69). -/
theorem step_payRead {s : State} {rest : List Access} {a : Nat} (ha : a < 2 ^ s.cfg.payAw)
    (h : s.host = .payRead 8 a :: rest) : step s = .next ((s.setHost rest).setReply (.byte (s.payByte a))) := by
  rw [step_cons h]
  exact payAccess_legal ha _

/-- Settles O52: a read's step sets the reply, and nothing the host reads looks at it. -/
theorem readsHaveNoSideEffects : Obligations.ReadsHaveNoSideEffects := by
  refine fun s rest => ⟨fun off halign hrange hhost => ?register, fun a ha hhost => ?payload⟩
  case register =>
    exact ⟨_, step_regRead halign hrange hhost, rfl, by simp, payByte_congr rfl rfl⟩
  case payload =>
    exact ⟨_, step_payRead ha hhost, rfl, by simp, payByte_congr rfl rfl⟩

end Sys2Proof.Machine

/-! PROOFS. Command words: every format's word is its fields, and its fields are the word (R80 to R86, R218). -/
namespace Sys2Proof.Machine

/-! ### The fields of the encoder's words (R81) -/

@[simp] theorem packZ_fields (op : BitVec 4) : opOf (packZ op) = op ∧ formatZ (packZ op) = true :=
  ⟨extractLsb'_field op (by decide), beq_iff_eq.2 (extractLsb'_field_disjoint op (by decide))⟩

@[simp] theorem packD_fields (op : BitVec 4) (d : BitVec 2) :
    opOf (packD op d) = op ∧ dOf (packD op d) = d ∧ formatD (packD op d) = true := by
  simp [opOf, dOf, formatD, packD, BitVec.extractLsb'_or, extractLsb'_field, extractLsb'_field_disjoint]

@[simp] theorem packS_fields (op : BitVec 4) (s : BitVec 2) :
    opOf (packS op s) = op ∧ sOf (packS op s) = s ∧ formatS (packS op s) = true := by
  simp [opOf, dOf, sOf, formatS, packS, BitVec.extractLsb'_or, extractLsb'_field, extractLsb'_field_disjoint]

@[simp] theorem packDS_fields (op : BitVec 4) (d s : BitVec 2) :
    opOf (packDS op d s) = op ∧ dOf (packDS op d s) = d ∧ sOf (packDS op d s) = s
      ∧ formatDS (packDS op d s) = true := by
  simp [opOf, dOf, sOf, formatDS, packDS, BitVec.extractLsb'_or, extractLsb'_field, extractLsb'_field_disjoint]

@[simp] theorem packDV_fields (op : BitVec 4) (d : BitVec 2) (width : BitVec 5) (imm : BitVec 16) :
    opOf (packDV op d width imm) = op ∧ dOf (packDV op d width imm) = d ∧ widthOf (packDV op d width imm) = width
      ∧ immOf (packDV op d width imm) = imm ∧ formatDV (packDV op d width imm) = true := by
  simp [opOf, dOf, sOf, zOf, widthOf, immOf, formatDV, packDV, BitVec.extractLsb'_or, extractLsb'_field,
    extractLsb'_field_disjoint]

@[simp] theorem packI8_fields (op : BitVec 4) (c : Codeword) :
    opOf (packI8 op c) = op ∧ (packI8 op c).extractLsb' 0 8 = c ∧ formatI8 (packI8 op c) = true := by
  simp [opOf, formatI8, packI8, BitVec.extractLsb'_or, extractLsb'_field, extractLsb'_field_disjoint]

/-- The reserved row has no format: below its opcode stand 28 bits of any value (R86). -/
@[simp] theorem encode_reservedE_fields (low : BitVec 28) :
    opOf (encode (.reservedE low)) = 0xE ∧ (encode (.reservedE low)).extractLsb' 0 28 = low := by
  simp [opOf, encode, BitVec.extractLsb'_or, extractLsb'_field, extractLsb'_field_disjoint]

theorem needZero_true (op : BitVec 4) (i : Instr) : needZero op true i = .ok i := rfl

/-- Settles O2: the opcode of the word selects the row, its must-be-zero bits are zero, and its operand fields are the
operands; `BBAPPV` passes its width test because it is well-formed. -/
theorem decodeOfEncodeIsTheCommand : Obligations.DecodeOfEncodeIsTheCommand := by
  intro i hwf
  cases i with
  | bbappv d width imm =>
    have hwidth : width.toNat ≤ 16 := of_decide_eq_true hwf
    simp [decode, encode, hwidth]
  | reservedE low => simp [decode]
  | _ => simp [decode, encode, needZero_true]

/-! ### A word is its fields (R80, R81) -/

/-- A field cut in two: its low `m` bits and the `n` bits above them. -/
theorem field_extractLsb'_split (w : Word) (lo m n : Nat) :
    field (w.extractLsb' lo (m + n)) lo
      = field (w.extractLsb' (lo + m) n) (lo + m) ||| field (w.extractLsb' lo m) lo := by
  apply BitVec.eq_of_getLsbD_eq
  intro k hk
  simp only [BitVec.getLsbD_or, getLsbD_field, BitVec.getLsbD_extractLsb']
  by_cases hlo : lo ≤ k
  · by_cases hm : lo + m ≤ k
    · have hnot : ¬ k - lo < m := by omega
      have hiff : k - lo < m + n ↔ k - (lo + m) < n := by omega
      simp [hlo, hm, hnot, hiff, Nat.add_sub_cancel' hlo, Nat.add_sub_cancel' hm]
    · have hin : k - lo < m := by omega
      have hin' : k - lo < m + n := by omega
      simp [hlo, hm, hin, hin']
  · have hm : ¬ lo + m ≤ k := by omega
    simp [hlo, hm]

/-- A field of zeros adds nothing to a word. -/
theorem field_of_zero (n lo : Nat) : field (0#n) lo = 0 := by simp [field]

/-- A word is its opcode and the 28 bits below it; the next lemmas cut those further. -/
theorem op_low_eq (w : Word) : field (opOf w) 28 ||| field (w.extractLsb' 0 28) 0 = w := by
  have hsplit := field_extractLsb'_split w 0 28 4
  rw [Nat.zero_add, BitVec.extractLsb'_eq_self, field_zero, BitVec.setWidth_eq] at hsplit
  exact hsplit.symm

theorem op_d_low_eq (w : Word) : field (opOf w) 28 ||| field (dOf w) 26 ||| field (w.extractLsb' 0 26) 0 = w := by
  have hsplit : field (w.extractLsb' 0 28) 0 = field (dOf w) 26 ||| field (w.extractLsb' 0 26) 0 :=
    field_extractLsb'_split w 0 26 2
  rw [BitVec.or_assoc, ← hsplit, op_low_eq]

theorem op_d_s_low_eq (w : Word) :
    field (opOf w) 28 ||| field (dOf w) 26 ||| field (sOf w) 24 ||| field (w.extractLsb' 0 24) 0 = w := by
  have hsplit : field (w.extractLsb' 0 26) 0 = field (sOf w) 24 ||| field (w.extractLsb' 0 24) 0 :=
    field_extractLsb'_split w 0 24 2
  rw [BitVec.or_assoc, ← hsplit, op_d_low_eq]

theorem low24_eq (w : Word) :
    field (w.extractLsb' 0 24) 0 = field (zOf w) 21 ||| (field (widthOf w) 16 ||| field (immOf w) 0) := by
  have hz : field (w.extractLsb' 0 24) 0 = field (zOf w) 21 ||| field (w.extractLsb' 0 21) 0 :=
    field_extractLsb'_split w 0 21 3
  have hwidth : field (w.extractLsb' 0 21) 0 = field (widthOf w) 16 ||| field (immOf w) 0 :=
    field_extractLsb'_split w 0 16 5
  rw [hz, hwidth]

/-! A word whose opcode is `op` and whose must-be-zero bits are zero is the format's word of its own fields. -/
section
variable {w : Word} {op : BitVec 4}

theorem packZ_eq (hop : opOf w = op) (h : formatZ w = true) : packZ op = w := by
  have hlow : w.extractLsb' 0 28 = 0#28 := beq_iff_eq.1 h
  simpa [packZ, hop, hlow, field_of_zero] using op_low_eq w

theorem packD_eq (hop : opOf w = op) (h : formatD w = true) : packD op (dOf w) = w := by
  have hlow : w.extractLsb' 0 26 = 0#26 := beq_iff_eq.1 h
  simpa [packD, hop, hlow, field_of_zero] using op_d_low_eq w

theorem packS_eq (hop : opOf w = op) (h : formatS w = true) : packS op (sOf w) = w := by
  obtain ⟨hd, hlow⟩ : dOf w = 0#2 ∧ w.extractLsb' 0 24 = 0#24 := by simpa [formatS] using h
  simpa [packS, hop, hd, hlow, field_of_zero] using op_d_s_low_eq w

theorem packDS_eq (hop : opOf w = op) (h : formatDS w = true) : packDS op (dOf w) (sOf w) = w := by
  have hlow : w.extractLsb' 0 24 = 0#24 := beq_iff_eq.1 h
  simpa [packDS, hop, hlow, field_of_zero] using op_d_s_low_eq w

theorem packDV_eq (hop : opOf w = op) (h : formatDV w = true) :
    packDV op (dOf w) (widthOf w) (immOf w) = w := by
  obtain ⟨hs, hz⟩ : sOf w = 0#2 ∧ zOf w = 0#3 := by simpa [formatDV] using h
  simpa [packDV, hop, hs, hz, low24_eq, field_of_zero, BitVec.or_assoc] using op_d_s_low_eq w

theorem packI8_eq (hop : opOf w = op) (h : formatI8 w = true) : packI8 op (w.extractLsb' 0 8) = w := by
  have hmid : w.extractLsb' 8 20 = 0#20 := beq_iff_eq.1 h
  have hsplit : field (w.extractLsb' 0 28) 0 = field (w.extractLsb' 8 20) 8 ||| field (w.extractLsb' 0 8) 0 :=
    field_extractLsb'_split w 0 8 20
  simpa [packI8, hop, hsplit, hmid, field_of_zero] using op_low_eq w

end

/-- A word that decodes is the encoder's word: the row is the opcode's, and the word has that row's format. -/
theorem encode_of_decode {w : Word} {i : Instr} (h : decode w = .ok i) : encode i = w := by
  unfold decode at h
  split at h
  case h_3 hop =>
    split_ifs at h with hformat hwidth
    cases h
    exact packDV_eq (BitVec.eq_of_toNat_eq hop) hformat
  case h_15 hop =>
    cases h
    have hE : opOf w = 0xE := BitVec.eq_of_toNat_eq hop
    have hw := op_low_eq w
    rwa [hE] at hw
  case h_16 =>
    obtain ⟨hformat, rfl⟩ := needZero_ok h
    have hlt := (opOf w).isLt
    have hF : (opOf w).toNat = 15 := by grind
    exact packZ_eq (BitVec.eq_of_toNat_eq hF) hformat
  case h_1 hop | h_6 hop | h_9 hop | h_11 hop | h_13 hop | h_14 hop =>
    obtain ⟨hformat, rfl⟩ := needZero_ok h
    exact packZ_eq (BitVec.eq_of_toNat_eq hop) hformat
  case h_2 hop | h_7 hop | h_8 hop | h_12 hop =>
    obtain ⟨hformat, rfl⟩ := needZero_ok h
    exact packD_eq (BitVec.eq_of_toNat_eq hop) hformat
  case h_4 hop =>
    obtain ⟨hformat, rfl⟩ := needZero_ok h
    exact packDS_eq (BitVec.eq_of_toNat_eq hop) hformat
  case h_5 hop =>
    obtain ⟨hformat, rfl⟩ := needZero_ok h
    exact packS_eq (BitVec.eq_of_toNat_eq hop) hformat
  case h_10 hop =>
    obtain ⟨hformat, rfl⟩ := needZero_ok h
    exact packI8_eq (BitVec.eq_of_toNat_eq hop) hformat

/-- Settles O3: by `decode_wf` and `encode_of_decode`. -/
theorem encodeOfDecodeIsTheWord : Obligations.EncodeOfDecodeIsTheWord :=
  fun _ _ h => ⟨decode_wf h, encode_of_decode h⟩

/-! ### The printed opcode map (R84) -/

/-- The bits of a word under an all-ones stretch of the mask are those of the row's pattern. -/
theorem extractLsb'_of_masked {w mask pattern : Word} (h : w &&& mask = pattern) {start len : Nat}
    (hmask : mask.extractLsb' start len = BitVec.allOnes len) :
    w.extractLsb' start len = pattern.extractLsb' start len := by
  rw [← h, BitVec.extractLsb'_and, hmask, BitVec.and_allOnes]

/-! A word that agrees with a format's word under the format's printed mask is the format's word of its own fields. -/
section
variable {w : Word} {op : BitVec 4}

theorem packZ_of_masked (h : w &&& 0xFFFFFFFF = packZ op) : packZ op = w := by
  rw [← h]
  exact BitVec.and_allOnes

theorem packD_of_masked (h : w &&& 0xF3FFFFFF = packD op 0) : packD op (dOf w) = w := by
  obtain ⟨hop, -, hformat⟩ := packD_fields op 0
  have hlow := extractLsb'_of_masked h (start := 0) (len := 26) (by decide)
  refine packD_eq ((extractLsb'_of_masked h (by decide)).trans hop) ?_
  rwa [formatD, hlow]

theorem packS_of_masked (h : w &&& 0xFCFFFFFF = packS op 0) : packS op (sOf w) = w := by
  obtain ⟨hop, -, hformat⟩ := packS_fields op 0
  have hd : dOf w = dOf (packS op 0) := extractLsb'_of_masked h (by decide)
  have hlow := extractLsb'_of_masked h (start := 0) (len := 24) (by decide)
  refine packS_eq ((extractLsb'_of_masked h (by decide)).trans hop) ?_
  rwa [formatS, hd, hlow]

theorem packDS_of_masked (h : w &&& 0xF0FFFFFF = packDS op 0 0) : packDS op (dOf w) (sOf w) = w := by
  obtain ⟨hop, -, -, hformat⟩ := packDS_fields op 0 0
  have hlow := extractLsb'_of_masked h (start := 0) (len := 24) (by decide)
  refine packDS_eq ((extractLsb'_of_masked h (by decide)).trans hop) ?_
  rwa [formatDS, hlow]

theorem packDV_of_masked (h : w &&& 0xF3E00000 = packDV op 0 0 0) :
    packDV op (dOf w) (widthOf w) (immOf w) = w := by
  obtain ⟨hop, -, -, -, hformat⟩ := packDV_fields op 0 0 0
  have hs : sOf w = sOf (packDV op 0 0 0) := extractLsb'_of_masked h (by decide)
  have hz : zOf w = zOf (packDV op 0 0 0) := extractLsb'_of_masked h (by decide)
  refine packDV_eq ((extractLsb'_of_masked h (by decide)).trans hop) ?_
  rwa [formatDV, hs, hz]

theorem packI8_of_masked (h : w &&& 0xFFFFFF00 = packI8 op 0) : packI8 op (w.extractLsb' 0 8) = w := by
  obtain ⟨hop, -, hformat⟩ := packI8_fields op 0
  have hmid := extractLsb'_of_masked h (start := 8) (len := 20) (by decide)
  refine packI8_eq ((extractLsb'_of_masked h (by decide)).trans hop) ?_
  rwa [formatI8, hmid]

end

theorem row_mem_opcodeRows (i : Instr) : i.row ∈ opcodeRows := by
  cases i <;> simp [opcodeRows, Instr.row]

/-- The reserved row is the one row whose constructor is no command (R84, R86). -/
theorem isCommand_iff_mnemonic_ne (i : Instr) : i.isCommand = true ↔ i.row.mnemonic ≠ "RESERVED_E" := by
  cases i <;> simp [Instr.isCommand, Instr.row]

/-- The encoder's word of an instruction is accepted by the instruction's own row. -/
theorem row_masks_encode (i : Instr) : encode i &&& i.row.mask = i.row.pattern := by
  have haccepts : i.row.accepts (encode i) = true := by
    cases i with
    | nop => exact Laws.RowAccepts.nop
    | bbclr d => exact Laws.RowAccepts.bbclr d
    | bbappv d width imm => exact Laws.RowAccepts.bbappv d width imm
    | bbcat d s => exact Laws.RowAccepts.bbcat d s
    | bbtocw s => exact Laws.RowAccepts.bbtocw s
    | lookup => exact Laws.RowAccepts.lookup
    | numenc d => exact Laws.RowAccepts.numenc d
    | pad d => exact Laws.RowAccepts.pad d
    | rsclr => exact Laws.RowAccepts.rsclr
    | rsstep c => exact Laws.RowAccepts.rsstep c
    | rsgen => exact Laws.RowAccepts.rsgen
    | bbappcw d => exact Laws.RowAccepts.bbappcw d
    | encode => exact Laws.RowAccepts.encode
    | clrerr => exact Laws.RowAccepts.clrerr
    | reservedE low => exact Laws.RowAccepts.reservedE low
    | reset => exact Laws.RowAccepts.reset
  exact beq_iff_eq.1 haccepts

/-- A word a command's row accepts, `WIDTH` at most 16 for `BBAPPV`, is the encoder's word of a well-formed command:
the one of that row whose operands are the word's fields. -/
theorem exists_encode_of_masked {w : Word} {j : Instr} (hj : j.isCommand = true)
    (h : w &&& j.row.mask = j.row.pattern) (hwidth : j.row.mnemonic = "BBAPPV" → (widthOf w).toNat ≤ 16) :
    ∃ i : Instr, i.isCommand = true ∧ i.wf = true ∧ encode i = w := by
  cases j with
  | nop => exact ⟨.nop, rfl, rfl, packZ_of_masked h⟩
  | bbclr => exact ⟨.bbclr (dOf w), rfl, rfl, packD_of_masked h⟩
  | bbappv =>
    exact ⟨.bbappv (dOf w) (widthOf w) (immOf w), rfl, decide_eq_true (hwidth rfl), packDV_of_masked h⟩
  | bbcat => exact ⟨.bbcat (dOf w) (sOf w), rfl, rfl, packDS_of_masked h⟩
  | bbtocw => exact ⟨.bbtocw (sOf w), rfl, rfl, packS_of_masked h⟩
  | lookup => exact ⟨.lookup, rfl, rfl, packZ_of_masked h⟩
  | numenc => exact ⟨.numenc (dOf w), rfl, rfl, packD_of_masked h⟩
  | pad => exact ⟨.pad (dOf w), rfl, rfl, packD_of_masked h⟩
  | rsclr => exact ⟨.rsclr, rfl, rfl, packZ_of_masked h⟩
  | rsstep => exact ⟨.rsstep (w.extractLsb' 0 8), rfl, rfl, packI8_of_masked h⟩
  | rsgen => exact ⟨.rsgen, rfl, rfl, packZ_of_masked h⟩
  | bbappcw => exact ⟨.bbappcw (dOf w), rfl, rfl, packD_of_masked h⟩
  | encode => exact ⟨.encode, rfl, rfl, packZ_of_masked h⟩
  | clrerr => exact ⟨.clrerr, rfl, rfl, packZ_of_masked h⟩
  | reservedE => cases hj
  | reset => exact ⟨.reset, rfl, rfl, packZ_of_masked h⟩

/-- Settles O4: a word a row accepts is the encoder's word of a command, which decodes (O2); a word that decodes is
the encoder's word (O3), which its own row accepts. -/
theorem commandWordsAreThoseOfTheMap : Obligations.CommandWordsAreThoseOfTheMap := by
  intro w
  constructor
  · rintro ⟨r, hr, hreserved, hmask, hwidth⟩
    obtain ⟨j, -, rfl⟩ := List.mem_map.1 hr
    obtain ⟨i, hi, hwf, rfl⟩ := exists_encode_of_masked ((isCommand_iff_mnemonic_ne j).2 hreserved) hmask hwidth
    exact ⟨i, decodeOfEncodeIsTheCommand i hwf, hi⟩
  · rintro ⟨i, hdecode, hi⟩
    obtain ⟨hwf, rfl⟩ := encodeOfDecodeIsTheWord w i hdecode
    refine ⟨i.row, row_mem_opcodeRows i, (isCommand_iff_mnemonic_ne i).1 hi, row_masks_encode i, fun hrow => ?_⟩
    cases i with
    | bbappv d width imm =>
      have hfield : (encode (.bbappv d width imm)).extractLsb' 16 5 = width := (packDV_fields 2 d width imm).2.2.1
      rw [hfield]
      exact of_decide_eq_true hwf
    | _ => simp [Instr.row] at hrow

/-! ### Words that are no command (R85, R86, R218) -/

theorem onlyError_raise (s : State) (e : ErrKind) (info : BitVec 16) :
    OnlyError (errCode e) info s (s.raise e info) :=
  ⟨rfl, payByte_congr rfl rfl⟩

/-- An illegal command with no error recorded leaves error 7 and nothing else. -/
theorem illegalCommand_onlyError {s : State} (h : s.errcode = 0) :
    ∃ t, illegalCommand s = .next t ∧ OnlyError 7 0 s t :=
  ⟨_, command_clear h _, onlyError_raise s .illegalCommand 0⟩

/-- A word that is no command is rejected by the decoder or is the reserved row's: both are illegal commands. -/
theorem runWord_of_not_isCommandWord {w : Word} (h : ¬ IsCommandWord w) (s : State) :
    runWord w s = illegalCommand s := by
  cases hdecode : decode w with
  | error r => exact runWord_error hdecode s
  | ok i =>
    rw [runWord_ok hdecode]
    cases i with
    | reservedE low => rfl
    | _ => exact absurd ((commandWordsAreThoseOfTheMap w).2 ⟨_, hdecode, rfl⟩) h

/-- Settles O5: the word runs as an illegal command, behind the entry test. -/
theorem illegalWordRaisesIllegalCommand : Obligations.IllegalWordRaisesIllegalCommand := by
  intro w s hw
  rw [runWord_of_not_isCommandWord hw]
  exact ⟨illegalCommand_onlyError, fun herr => command_error herr _⟩

/-- Settles O43: the reserved row's meaning is the illegal command, whatever its 28 bits. -/
theorem reservedOpcodeIsIllegal : Obligations.ReservedOpcodeIsIllegal :=
  fun _ _ herr => illegalCommand_onlyError herr

/-! ### Words printed in the spec -/

/-- Settles O1: the decoder evaluated at each printed word. -/
theorem specWordsDecodeAsPrinted : Obligations.SpecWordsDecodeAsPrinted := by
  unfold Obligations.SpecWordsDecodeAsPrinted
  decide

end Sys2Proof.Machine


/-! PROOFS. The bit-buffer functions and commands (R101, R106 to R110). -/
namespace Sys2Proof.Machine

/-! ### Appending a value (R101) -/

theorem bits_getElem? (v : Nat) {w i : Nat} (h : i < w) : (bits v w)[i]? = some (v.testBit (w - 1 - i)) := by
  rw [List.getElem?_eq_getElem (by rwa [bits_length]), bits_getElem]

/-- Only the low `w` bits of the value matter (R105). -/
theorem bits_mod (v w : Nat) : bits (v % 2 ^ w) w = bits v w :=
  val_injective (by simp) (by rw [val_bits, val_bits, Nat.mod_mod])

/-- Settles O9: the bits after `b` are `bits v w`, which `bits_getElem?` and `bits_mod` describe. -/
theorem appendValueAppendsTheLowBits : Obligations.AppendValueAppendsTheLowBits := by
  intro b v w
  refine ⟨appendValue_length b v w, List.take_left, fun i hi => ?bit, ?low, List.append_nil b⟩
  case bit =>
    rw [appendValue, List.getElem?_append_right (Nat.le_add_right _ _), Nat.add_sub_cancel_left, bits_getElem? v hi]
  case low => rw [appendValue, appendValue, bits_mod]

/-! ### Storing a buffer -/

/-- Writing a bit buffer is seen in that buffer and nowhere else. -/
theorem setBuf_onlyBuf (s : State) (d : BitVec 2) (x : Bits) :
    (s.setBuf d x).buf d = x ∧ OnlyBuf d s (s.setBuf d x) := by
  refine ⟨?_, fun e he => ?_, rfl, payByte_congr rfl rfl⟩
  · rw [State.buf_setBuf, if_pos rfl]
  · rw [State.buf_setBuf, if_neg he]

/-- A command that stores `x` in `BB[d]`, with no error recorded: it stores `x` and changes nothing else where `x`
fits, and raises `BufferOverflow` and changes nothing else where it does not (R219, R224). -/
theorem command_storeBuf {s : State} (herr : s.errcode = 0) (d : BitVec 2) {x : Bits} {n : Nat} (hn : x.length = n) :
    (Fits s.cfg n → ∃ t, command s (s.storeBuf d x) = .next t ∧ t.buf d = x ∧ OnlyBuf d s t)
    ∧ (¬ Fits s.cfg n → ∃ t, command s (s.storeBuf d x) = .next t ∧ OnlyError 8 0 s t) := by
  subst hn
  rw [command_clear herr]
  constructor
  · intro hfits
    exact ⟨_, rfl, storeBuf_fits hfits d ▸ setBuf_onlyBuf s d x⟩
  · intro hover
    exact ⟨_, rfl, storeBuf_over hover d ▸ onlyError_raise s .bufferOverflow 0⟩

/-! ### The commands -/

/-- Codewords are appended in order, each as its eight bits (R110). -/
theorem appendCodewords_eq_flatMap (b : Bits) (cs : List Codeword) :
    appendCodewords b cs = b ++ cs.flatMap (fun c => bits c.toNat 8) := by
  induction cs generalizing b with
  | nil => simp [appendCodewords]
  | cons c cs ih => rw [appendCodewords, ih, appendValue, List.append_assoc, List.flatMap_cons]

/-- Settles O15: `BBAPPCW` stores the appended codewords, which are the flattened eight-bit groups. -/
theorem bbappcwAppendsTheRemainder : Obligations.BbappcwAppendsTheRemainder := by
  intro d s herr
  rw [← appendCodewords_eq_flatMap]
  exact command_storeBuf herr d (appendCodewords_length (s.buf d) s.rem)

/-- Settles O11: the command is one buffer write. -/
theorem bbclrEmptiesTheBuffer : Obligations.BbclrEmptiesTheBuffer :=
  fun d s herr => ⟨_, command_clear herr _, setBuf_onlyBuf s d []⟩

/-- Settles O12: up to width 16 the command stores the appended value; above, it is an illegal command. -/
theorem bbappvAppendsTheImmediate : Obligations.BbappvAppendsTheImmediate := by
  intro d w imm s herr
  have hstore := command_storeBuf herr d (appendValue_length (s.buf d) imm.toNat w.toNat)
  have hlegal (hw : w.toNat ≤ 16) : exec (.bbappv d w imm) s
      = command s (s.storeBuf d (appendValue (s.buf d) imm.toNat w.toNat)) := if_pos hw
  have hillegal (hw : 16 < w.toNat) : exec (.bbappv d w imm) s = illegalCommand s := if_neg (by omega)
  refine ⟨fun hw => ?_, fun hw => ?_, fun hw => ?_⟩
  · rw [hlegal hw]; exact hstore.1
  · rw [Raises, hlegal hw]; exact hstore.2
  · rw [Raises, hillegal hw]; exact illegalCommand_onlyError herr

/-- Settles O13: the command stores the concatenation of the two old buffers. -/
theorem bbcatAppendsTheSource : Obligations.BbcatAppendsTheSource :=
  fun d src s herr => command_storeBuf herr d (List.length_append (as := s.buf d) (bs := s.buf src))

/-- Settles O14: the command is one write of the codeword file, whose entries `toCodewords_getElem?` gives. -/
theorem bbtocwGroupsTheBuffer : Obligations.BbtocwGroupsTheBuffer := by
  intro src s herr
  have hcount : (s.setCw (toCodewords (s.buf src))).cwn = ceilDiv8 (s.buf src).length := toCodewords_length _
  exact ⟨_, command_clear herr _, hcount, fun j hj => toCodewords_getElem? (hcount ▸ hj), rfl, payByte_congr rfl rfl⟩

end Sys2Proof.Machine

/-! PROOFS. The command `LOOKUP` (R122, R212). -/
namespace Sys2Proof.Machine

/-- A registered pair: the command is one load of the capacity register. -/
theorem exec_lookup_of_registered {s : State} (herr : s.errcode = 0) {e : CapEntry}
    (h : lookup s.cfg s.version s.mode = some e) : exec .lookup s = .next (s.loadEntry e) := by
  rw [exec, execLookup, command_clear herr, h]

/-- An unregistered pair: the command drops the entry, and only then raises. -/
theorem exec_lookup_of_unregistered {s : State} (herr : s.errcode = 0)
    (h : lookup s.cfg s.version s.mode = none) : exec .lookup s = .next s.lookupFailed := by
  rw [exec, execLookup, command_clear herr, h]

/-- Settles O17: the command is `loadEntry` where the lookup finds an entry and `lookupFailed` where it does not;
neither writes the payload. -/
theorem lookupLoadsTheEntry : Obligations.LookupLoadsTheEntry := by
  intro s herr
  constructor
  · intro e hfound
    exact ⟨_, exec_lookup_of_registered herr hfound, rfl, payByte_congr rfl rfl⟩
  · intro hnone
    exact ⟨_, exec_lookup_of_unregistered herr hnone, rfl, payByte_congr rfl rfl⟩

end Sys2Proof.Machine

/-! PROOFS. The numeric-mode encoder and the command `NUMENC` (R131 to R140, R219). -/
namespace Sys2Proof.Machine

/-! ### Group codes (R131, R133) -/

/-- The code of full group `g`: positions `3g`, `3g + 1`, `3g + 2` in 10 bits. -/
def fullGroupCode (p : List Byte) (g : Nat) : Bits :=
  bits (100 * digitAt p (3 * g) + 10 * digitAt p (3 * g + 1) + digitAt p (3 * g + 2)) 10

/-- The code of the last group of one or two, if there is one. -/
def lastGroupCode (p : List Byte) : Bits :=
  if p.length % 3 = 1 then bits (digitAt p (p.length - 1)) 4
  else if p.length % 3 = 2 then bits (10 * digitAt p (p.length - 2) + digitAt p (p.length - 1)) 7
  else []

section
variable (a b c : Byte) (rest : List Byte)

/-- Behind a first group every position is three more than in the rest. -/
theorem digitAt_cons_three (i : Nat) : digitAt (a :: b :: c :: rest) (i + 3) = digitAt rest i := rfl

theorem fullGroupCode_cons_three (g : Nat) : fullGroupCode (a :: b :: c :: rest) (g + 1) = fullGroupCode rest g := rfl

theorem lastGroupCode_cons_three : lastGroupCode (a :: b :: c :: rest) = lastGroupCode rest := by
  have hmod : (a :: b :: c :: rest).length % 3 = rest.length % 3 := Nat.add_mod_right rest.length 3
  have hfromEnd {k : Nat} (hk : k ≤ rest.length) :
      digitAt (a :: b :: c :: rest) ((a :: b :: c :: rest).length - k) = digitAt rest (rest.length - k) := by
    rw [← digitAt_cons_three a b c rest, ← Nat.sub_add_comm hk]; rfl
  unfold lastGroupCode
  rw [hmod]
  split_ifs
  · rw [hfromEnd (by omega)]
  · rw [hfromEnd (by omega), hfromEnd (by omega)]
  · rfl

end

/-- The group codes are those of the partition of R131. -/
theorem groupCodes_eq_partition (p : List Byte) :
    groupCodes p = (List.range (p.length / 3)).flatMap (fullGroupCode p) ++ lastGroupCode p := by
  induction p using groupCodes.induct with
  | case1 a b c rest ih =>
    have hgroups : (a :: b :: c :: rest).length / 3 = rest.length / 3 + 1 :=
      Nat.add_div_right rest.length (by decide : 0 < 3)
    rw [hgroups, List.range_succ_eq_map, List.flatMap_cons, List.flatMap_map, lastGroupCode_cons_three,
      List.append_assoc]
    simp only [fullGroupCode_cons_three]
    rw [← ih]
    rfl
  | case2 a b => simp [groupCodes, lastGroupCode, digitAt, digit]
  | case3 a => simp [groupCodes, lastGroupCode, digitAt, digit]
  | case4 => rfl

/-- Settles O18: the recursion of `groupCodes` takes one full group at a time, and the partition's remaining groups
are those of the rest. -/
theorem groupCodesFollowThePartition : Obligations.GroupCodesFollowThePartition := groupCodes_eq_partition

theorem lastGroupCode_length (p : List Byte) : (lastGroupCode p).length = tailBits p.length := by
  have hmod : p.length % 3 = 0 ∨ p.length % 3 = 1 ∨ p.length % 3 = 2 := by omega
  obtain h | h | h := hmod <;> simp [lastGroupCode, tailBits, h]

theorem groupCodes_length (p : List Byte) : (groupCodes p).length = 10 * (p.length / 3) + tailBits p.length := by
  rw [groupCodes_eq_partition, List.length_append, lastGroupCode_length, List.length_flatMap]
  simp [fullGroupCode, Nat.mul_comm]

/-! ### The digit test (R132) -/

theorem isDigit_iff (c : Byte) : isDigit c = true ↔ 0x30 ≤ c.toNat ∧ c.toNat ≤ 0x39 := by simp [isDigit]

/-- The digit test as the library's search for a position. -/
theorem firstNonDigit_eq_findIdx? (p : List Byte) (k : Nat) :
    firstNonDigit p k = (p.findIdx? (fun c => !isDigit c)).map (· + k) := by
  induction p generalizing k with
  | nil => rfl
  | cons c cs ih =>
    rw [firstNonDigit, List.findIdx?_cons, ih]
    cases isDigit c with
    | true => simp [Function.comp_def, Nat.add_assoc, Nat.add_comm 1]
    | false => simp

@[simp] theorem payload_length (s : State) : s.payload.length = s.plen.toNat := by simp [State.payload]

theorem firstNonDigit_of_allDigits {s : State} (h : AllDigits s) : firstNonDigit s.payload 0 = none := by
  rw [firstNonDigit_eq_findIdx?, Option.map_eq_none_iff, List.findIdx?_eq_none_iff]
  intro c hc
  obtain ⟨i, hi, rfl⟩ := List.mem_map.1 hc
  simpa [isDigit_iff] using h i (List.mem_range.1 hi)

theorem firstNonDigit_of_least {s : State} {i : Nat} (hi : i < s.plen.toNat)
    (hbad : (s.payByte i).toNat < 0x30 ∨ 0x39 < (s.payByte i).toNat)
    (hleast : ∀ j, j < i → 0x30 ≤ (s.payByte j).toNat ∧ (s.payByte j).toNat ≤ 0x39) :
    firstNonDigit s.payload 0 = some i := by
  have hfind : s.payload.findIdx? (fun c => !isDigit c) = some i := by
    rw [List.findIdx?_eq_some_iff_getElem]
    refine ⟨by rwa [payload_length], ?_, fun j hj => ?_⟩
    · have : ¬ isDigit (s.payByte i) = true := by rw [isDigit_iff]; omega
      simpa [State.payload] using this
    · simpa [State.payload, isDigit_iff] using hleast j hj
  rw [firstNonDigit_eq_findIdx?, hfind]
  rfl

/-! ### The encoder, case by case (R135 to R137) -/

section
variable {e : CapEntry} {p : List Byte}

theorem numericEncode_of_count (h : 2 ^ e.ccw.toNat ≤ p.length) :
    numericEncode e p = .error { kind := .characterCountOverflow, info := 0 } := if_pos h

theorem numericEncode_of_nonDigit (hcount : p.length < 2 ^ e.ccw.toNat) {i : Nat} (h : firstNonDigit p 0 = some i) :
    numericEncode e p = .error { kind := .invalidDigit, info := BitVec.ofNat 16 i } := by
  rw [numericEncode, if_neg (Nat.not_le.2 hcount), h]

theorem numericEncode_of_digits (hcount : p.length < 2 ^ e.ccw.toNat) (h : firstNonDigit p 0 = none) :
    numericEncode e p = .ok (modeIndicator e ++ bits p.length e.ccw.toNat ++ groupCodes p) := by
  rw [numericEncode, if_neg (Nat.not_le.2 hcount), h]

end

/-- The length of the encoder's result (R140). -/
theorem encoded_length (e : CapEntry) (p : List Byte) :
    (modeIndicator e ++ bits p.length e.ccw.toNat ++ groupCodes p).length = encodedLength e p.length := by
  simp only [modeIndicator, List.length_append, bits_length, groupCodes_length, encodedLength]
  omega

/-! ### The command (R138) -/

section
variable {s : State} (d : BitVec 2)

/-- An entry loaded and Numeric mode, the encoder fails: the command raises its failure. -/
theorem numenc_raises_failure (herr : s.errcode = 0) (hcap : s.capvalid = true) (hmode : s.mode = 0) {f : Failure}
    (h : numericEncode s.capr s.payload = .error f) : Raises (.numenc d) s (errCode f.kind) f.info := by
  rw [Raises, exec, execNumenc, command_clear herr, if_neg (by simp [hcap]), if_neg (by simp [hmode]), h]
  exact ⟨_, rfl, onlyError_raise s f.kind f.info⟩

/-- An entry loaded and Numeric mode, the encoder succeeds: the command stores its result. -/
theorem exec_numenc_of_digits (hcap : s.capvalid = true) (hmode : s.mode = 0)
    (hcount : s.plen.toNat < 2 ^ s.capr.ccw.toNat) (hdigits : AllDigits s) :
    exec (.numenc d) s = command s (s.storeBuf d
      (modeIndicator s.capr ++ bits s.plen.toNat s.capr.ccw.toNat ++ groupCodes s.payload)) := by
  rw [← payload_length] at hcount ⊢
  rw [exec, execNumenc, if_neg (by simp [hcap]), if_neg (by simp [hmode]),
    numericEncode_of_digits hcount (firstNonDigit_of_allDigits hdigits)]

end

/-- Settles O20: the command stores the encoder's result, whose length is `encodedLength`. -/
theorem numencWritesTheEncodedPayload : Obligations.NumencWritesTheEncodedPayload := by
  intro d s herr hcap hmode hcount hdigits hfits
  rw [exec_numenc_of_digits d hcap hmode hcount hdigits]
  exact (command_storeBuf herr d (payload_length s ▸ encoded_length s.capr s.payload)).1 hfits

/-- Settles O21: two tests before the encoder, the encoder's two failures, and the store that does not fit. -/
theorem numencRaisesTheFirstError : Obligations.NumencRaisesTheFirstError := by
  intro d s herr
  refine ⟨fun hcap => ?notConfigured, fun hcap hmode => ?unsupportedMode, fun hcap hmode hcount => ?count,
    fun hcap hmode hcount i hi hbad hleast => ?digit, fun hcap hmode hcount hdigits hover => ?overflow⟩
  case notConfigured =>
    rw [Raises, exec, execNumenc, command_clear herr, if_pos hcap]
    exact ⟨_, rfl, onlyError_raise s .notConfigured 0⟩
  case unsupportedMode =>
    rw [Raises, exec, execNumenc, command_clear herr, if_neg (by simp [hcap]), if_pos hmode]
    exact ⟨_, rfl, onlyError_raise s .unsupportedMode 0⟩
  case count =>
    rw [← payload_length] at hcount
    exact numenc_raises_failure d herr hcap hmode (numericEncode_of_count hcount)
  case digit =>
    have hfirst := firstNonDigit_of_least hi hbad hleast
    rw [← payload_length] at hcount
    exact numenc_raises_failure d herr hcap hmode (numericEncode_of_nonDigit hcount hfirst)
  case overflow =>
    rw [Raises, exec_numenc_of_digits d hcap hmode hcount hdigits]
    exact (command_storeBuf herr d (payload_length s ▸ encoded_length s.capr s.payload)).2 hover

end Sys2Proof.Machine

/-! PROOFS. The padder and the command `PAD` (R150 to R154). -/
namespace Sys2Proof.Machine

/-! ### The padded sequence (R153) -/

/-- Bit `j` of the repeated pad pattern of length `w`. -/
theorem bits_getD_mod (v : Nat) {w : Nat} (hw : 0 < w) (j : Nat) :
    (bits v w).getD (j % w) false = v.testBit (w - 1 - j % w) := by
  rw [List.getD_eq_getElem?_getD, bits_getElem? v (Nat.mod_lt j hw), Option.getD_some]

/-- The pattern is injected from its first bit, repeated up to the capacity. -/
theorem padPattern_eq_testBits {e : CapEntry} (hw : 0 < e.patLen.toNat) (b : Bits) :
    padPattern e b = b ++ (List.range (e.dcb.toNat - b.length)).map
      (fun j => e.patBits.toNat.testBit (e.patLen.toNat - 1 - j % e.patLen.toNat)) := by
  simp only [padPattern, bits_getD_mod _ hw]

/-- Terminator and alignment together append zeros only. -/
theorem padAlignment_padTerminator (e : CapEntry) (b : Bits) {t a : Nat}
    (ht : t = min e.padTerm.toNat (e.dcb.toNat - b.length))
    (ha : a = min ((e.padAlign.toNat - (b.length + t) % e.padAlign.toNat) % e.padAlign.toNat)
      (e.dcb.toNat - (b.length + t))) :
    padAlignment e (padTerminator e b) = b ++ List.replicate (t + a) false := by
  rw [padAlignment, padTerminator_length, ← ht, ← ha, padTerminator, ← ht, List.append_assoc, zeroBits, zeroBits,
    List.replicate_append_replicate]

theorem entryWf_patLen_pos {e : CapEntry} (h : entryWf e = true) : 0 < e.patLen.toNat := by
  simp only [entryWf, Bool.and_eq_true, decide_eq_true_eq] at h
  omega

/-- Settles O23: the zeros of the first two parts, then the injected pattern. -/
theorem paddingHasThreeParts : Obligations.PaddingHasThreeParts := by
  intro e b t a hwf _ ht ha
  rw [padBits, padAlignment_padTerminator e b ht ha, padPattern_eq_testBits (entryWf_patLen_pos hwf),
    List.length_append, List.length_replicate, Nat.add_assoc]

/-- Each part of the padder appends, so the padded sequence begins with the old bits (R154). -/
theorem prefix_padBits (e : CapEntry) (b : Bits) : b <+: padBits e b :=
  ((List.prefix_append b _).trans (List.prefix_append (padTerminator e b) _)).trans (List.prefix_append _ _)

/-- A sequence already as long as the capacity gets no padding (R154). -/
theorem padBits_of_full {e : CapEntry} {b : Bits} (h : b.length = e.dcb.toNat) : padBits e b = b :=
  ((prefix_padBits e b).eq_of_length (h.trans (padBits_length e b h.le).symm)).symm

/-- The zero-fill policy has no terminator, no alignment, and a pattern of one zero bit (R152). -/
theorem padBits_zeroFill {e : CapEntry} (hterm : e.padTerm = 0) (halign : e.padAlign = 1) (hlen : e.patLen = 1)
    (hpat : e.patBits = 0) (b : Bits) : padBits e b = b ++ List.replicate (e.dcb.toNat - b.length) false := by
  have hzeros : padAlignment e (padTerminator e b) = b ++ List.replicate (0 + 0) false :=
    padAlignment_padTerminator e b (by simp [hterm]) (by simp [halign, Nat.mod_one])
  rw [padBits, hzeros, padPattern_eq_testBits (by simp [hlen])]
  simp [hpat]

/-! ### The command (R154) -/

theorem Bufs.set_get (b : Bufs) (d : BitVec 2) : b.set d (b.get d) = b := by
  have hd : d = 0 ∨ d = 1 ∨ d = 2 ∨ d = 3 := by revert d; decide
  rcases hd with rfl | rfl | rfl | rfl <;> rfl

/-- Writing a bit buffer with what it holds changes nothing. -/
@[simp] theorem State.setBuf_buf_self (s : State) (d : BitVec 2) : s.setBuf d (s.buf d) = s := by
  rw [State.setBuf, State.buf, Bufs.set_get]

section
variable {s t : State} {d : BitVec 2}

theorem pad_raises_notConfigured (herr : s.errcode = 0) (hcap : s.capvalid = false) : Raises (.pad d) s 9 0 := by
  rw [Raises, exec, execPad, command_clear herr, if_pos hcap]
  exact ⟨_, rfl, onlyError_raise s .notConfigured 0⟩

theorem pad_raises_dataCapacityExceeded (herr : s.errcode = 0) (hcap : s.capvalid = true)
    (hlong : s.capr.dcb.toNat < (s.buf d).length) : Raises (.pad d) s 4 0 := by
  rw [Raises, exec, execPad, command_clear herr, if_neg (by simp [hcap]), if_pos hlong]
  exact ⟨_, rfl, onlyError_raise s .dataCapacityExceeded 0⟩

/-- With an entry loaded and a buffer within the capacity, the command stores the padded buffer: its test of `dcb`
against `BBCAP` is the store's own, for the padded length is `dcb`. -/
theorem exec_pad_eq_storeBuf (hcap : s.capvalid = true) (hlen : (s.buf d).length ≤ s.capr.dcb.toNat) :
    exec (.pad d) s = command s (s.storeBuf d (padBits s.capr (s.buf d))) := by
  rw [exec, execPad, if_neg (by simp [hcap]), if_neg (Nat.not_lt.2 hlen), State.storeBuf, padBits_length _ _ hlen]

/-- Both outcomes of that store. -/
theorem exec_pad_of_le (herr : s.errcode = 0) (hcap : s.capvalid = true)
    (hlen : (s.buf d).length ≤ s.capr.dcb.toNat) :
    (Fits s.cfg s.capr.dcb.toNat →
      ∃ t, exec (.pad d) s = .next t ∧ t.buf d = padBits s.capr (s.buf d) ∧ OnlyBuf d s t)
    ∧ (¬ Fits s.cfg s.capr.dcb.toNat → Raises (.pad d) s 8 0) := by
  rw [Raises, exec_pad_eq_storeBuf hcap hlen]
  exact command_storeBuf herr d (padBits_length _ _ hlen)

/-- `PAD` of a buffer whose length is the capacity changes nothing (R154). -/
theorem exec_pad_of_full (hcap : s.capvalid = true) (hfull : (s.buf d).length = s.capr.dcb.toNat)
    (hfits : Fits s.cfg s.capr.dcb.toNat) : exec (.pad d) s = .next s := by
  rw [← hfull] at hfits
  rw [exec_pad_eq_storeBuf hcap hfull.le, padBits_of_full hfull, storeBuf_fits hfits, State.setBuf_buf_self, command_eq,
    ite_self]

/-- After an error `PAD` is ignored (R222). -/
theorem exec_pad_after_raises {code : BitVec 4} {info : BitVec 16} (h : Raises (.pad d) s code info)
    (hcode : code ≠ 0) (ht : exec (.pad d) s = .next t) : exec (.pad d) t = .next t := by
  obtain ⟨u, hu, hrecord, -⟩ := h
  cases hu.symm.trans ht
  exact command_error (by rw [hrecord]; exact hcode) _

/-- A second `PAD` of the same buffer changes nothing: the first left the buffer full, or an error (R154). -/
theorem exec_pad_twice (herr : s.errcode = 0) (ht : exec (.pad d) s = .next t) : exec (.pad d) t = .next t := by
  rcases hcap : s.capvalid with _ | _
  · exact exec_pad_after_raises (pad_raises_notConfigured herr hcap) (by decide) ht
  rcases Nat.lt_or_ge s.capr.dcb.toNat (s.buf d).length with hlong | hlen
  · exact exec_pad_after_raises (pad_raises_dataCapacityExceeded herr hcap hlong) (by decide) ht
  obtain ⟨hstored, hover⟩ := exec_pad_of_le herr hcap hlen
  by_cases hfits : Fits s.cfg s.capr.dcb.toNat
  · obtain ⟨u, hu, hbuf, -, hframe, -⟩ := hstored hfits
    cases hu.symm.trans ht
    have hfull : (t.buf d).length = s.capr.dcb.toNat := by rw [hbuf, padBits_length _ _ hlen]
    have hcapvalid : t.capvalid = s.capvalid := by rw [hframe]
    have hcapr : t.capr = s.capr := by rw [hframe]
    have hcfg : t.cfg = s.cfg := by rw [hframe]
    exact exec_pad_of_full (by rwa [hcapvalid]) (by rwa [hcapr]) (by rwa [hcapr, hcfg])
  · exact exec_pad_after_raises (hover hfits) (by decide) ht

end

/-- Settles O22: one lemma per outcome of the command, and the second run. -/
theorem padExtendsToTheCapacity : Obligations.PadExtendsToTheCapacity := by
  intro d s herr
  refine ⟨fun hcap hlen hfits => ?_, pad_raises_notConfigured herr, pad_raises_dataCapacityExceeded herr,
    fun hcap hlen => (exec_pad_of_le herr hcap hlen).2, fun t => exec_pad_twice herr⟩
  obtain ⟨t, hexec, hbuf, honly⟩ := (exec_pad_of_le herr hcap hlen).1 hfits
  refine ⟨t, hexec, ?_, ?_, hbuf, honly⟩
  · rw [hbuf, padBits_length _ _ hlen]
  · rw [hbuf, ← List.prefix_iff_eq_take.1 (prefix_padBits s.capr (s.buf d))]

/-- Settles O24: the command stores the padded buffer, which `padBits_zeroFill` gives. -/
theorem zeroFillPadsWithZeros : Obligations.ZeroFillPadsWithZeros := by
  intro d s herr hcap hlen hfits hterm halign hpatLen hpat
  rw [← padBits_zeroFill hterm halign hpatLen hpat]
  exact (exec_pad_of_le herr hcap hlen).1 hfits

end Sys2Proof.Machine

/-! PROOFS. The product of the field: additive in both factors, commutative, associative (R162). -/
namespace Sys2Proof.Machine

/-! ### Both loops of the product are linear -/

@[simp] theorem gfAdd_eq_xor (a b : Codeword) : gfAdd a b = a ^^^ b := rfl

/-- The bit `p`, as a factor of the polynomial `z` over GF(2). -/
def bitTimes (p : Bool) (z : BitVec 16) : BitVec 16 := if p then z else 0

theorem bitTimes_xor_left (p q : Bool) (z : BitVec 16) : bitTimes (p ^^ q) z = bitTimes p z ^^^ bitTimes q z := by
  cases p <;> cases q <;> simp [bitTimes]

theorem bitTimes_xor_right (p : Bool) (y z : BitVec 16) : bitTimes p (y ^^^ z) = bitTimes p y ^^^ bitTimes p z := by
  cases p <;> simp [bitTimes]

theorem clmul_succ (a b : Codeword) (n : Nat) :
    clmul a b (n + 1) = clmul a b n ^^^ bitTimes (b.getLsbD n) (a.setWidth 16 <<< n) := by
  cases h : b.getLsbD n <;> simp [clmul, bitTimes, h]

theorem gfReduce_succ (n : Nat) (r : BitVec 16) :
    gfReduce (n + 1) r = gfReduce n (r ^^^ bitTimes (r.getLsbD (8 + n)) ((0x11D : BitVec 16) <<< n)) := by
  simp only [gfReduce, bitTimes]; split <;> simp

theorem clmul_xor_left (a a' b : Codeword) (n : Nat) : clmul (a ^^^ a') b n = clmul a b n ^^^ clmul a' b n := by
  induction n with
  | zero => simp [clmul]
  | succ n ih =>
    simp only [clmul_succ, ih, BitVec.setWidth_xor, BitVec.shiftLeft_xor_distrib, bitTimes_xor_right]
    ac_rfl

theorem clmul_xor_right (a b b' : Codeword) (n : Nat) : clmul a (b ^^^ b') n = clmul a b n ^^^ clmul a b' n := by
  induction n with
  | zero => simp [clmul]
  | succ n ih =>
    simp only [clmul_succ, ih, BitVec.getLsbD_xor, bitTimes_xor_left]
    ac_rfl

theorem gfReduce_xor (n : Nat) (r r' : BitVec 16) : gfReduce n (r ^^^ r') = gfReduce n r ^^^ gfReduce n r' := by
  induction n generalizing r r' with
  | zero => rfl
  | succ n ih =>
    simp only [gfReduce_succ, ← ih, BitVec.getLsbD_xor, bitTimes_xor_left]
    ac_rfl

/-! ### The laws of the product -/

theorem gfMul_xor_left (a a' b : Codeword) : gfMul (a ^^^ a') b = gfMul a b ^^^ gfMul a' b := by
  rw [gfMul, clmul_xor_left, gfReduce_xor, BitVec.setWidth_xor, gfMul, gfMul]

theorem gfMul_xor_right (a b b' : Codeword) : gfMul a (b ^^^ b') = gfMul a b ^^^ gfMul a b' := by
  rw [gfMul, clmul_xor_right, gfReduce_xor, BitVec.setWidth_xor, gfMul, gfMul]

@[simp] theorem gfMul_zero_left (b : Codeword) : gfMul 0#8 b = 0#8 := by
  simpa using gfMul_xor_left 0#8 0#8 b

@[simp] theorem gfMul_zero_right (a : Codeword) : gfMul a 0#8 = 0#8 := by
  simpa using gfMul_xor_right a 0#8 0#8

/-- The power `x^i` for `i` below 8, bit `i` alone: these span the field over GF(2) (R160). -/
def monomial (i : Fin 8) : Codeword := 1 <<< i.val

/-- An element is the sum of the monomials its bits name (R160). -/
theorem codeword_eq_sum_monomials (a : Codeword) :
    a = (List.finRange 8).foldl (fun sum (i : Fin 8) => sum ^^^ if a.getLsbD i then monomial i else 0#8) 0#8 := by
  revert a
  decide +kernel

/-- A statement that holds of 0, of the monomials and of sums holds of every element. -/
theorem codeword_induction {P : Codeword → Prop} (zero : P 0#8) (monomial : ∀ i, P (monomial i))
    (xor : ∀ a b, P a → P b → P (a ^^^ b)) (a : Codeword) : P a := by
  rw [codeword_eq_sum_monomials a]
  refine List.foldlRecOn _ _ zero fun sum hsum i _ => xor _ _ hsum ?_
  split
  · exact monomial i
  · exact zero

theorem gfMul_comm_monomial : ∀ i j, gfMul (monomial i) (monomial j) = gfMul (monomial j) (monomial i) := by
  decide +kernel

theorem gfMul_assoc_monomial : ∀ i j k, gfMul (gfMul (monomial i) (monomial j)) (monomial k)
    = gfMul (monomial i) (gfMul (monomial j) (monomial k)) := by
  decide +kernel

theorem gfMul_monomial_one : ∀ i, gfMul (monomial i) 1 = monomial i := by
  decide +kernel

/-- Both sides are additive in each factor, so the monomials decide. -/
theorem gfMul_comm (a b : Codeword) : gfMul a b = gfMul b a := by
  induction a using codeword_induction with
  | zero => rw [gfMul_zero_left, gfMul_zero_right]
  | xor a a' iha iha' => rw [gfMul_xor_left, gfMul_xor_right, iha, iha']
  | monomial i =>
    induction b using codeword_induction with
    | zero => rw [gfMul_zero_left, gfMul_zero_right]
    | xor b b' ihb ihb' => rw [gfMul_xor_left, gfMul_xor_right, ihb, ihb']
    | monomial j => exact gfMul_comm_monomial i j

/-- Both sides are additive in each of the three factors, so the monomials decide. -/
theorem gfMul_assoc (a b c : Codeword) : gfMul (gfMul a b) c = gfMul a (gfMul b c) := by
  induction a using codeword_induction with
  | zero => simp only [gfMul_zero_left]
  | xor a a' iha iha' => simp only [gfMul_xor_left, iha, iha']
  | monomial i =>
    induction b using codeword_induction with
    | zero => simp only [gfMul_zero_left, gfMul_zero_right]
    | xor b b' ihb ihb' => simp only [gfMul_xor_left, gfMul_xor_right, ihb, ihb']
    | monomial j =>
      induction c using codeword_induction with
      | zero => simp only [gfMul_zero_right]
      | xor c c' ihc ihc' => simp only [gfMul_xor_right, ihc, ihc']
      | monomial k => exact gfMul_assoc_monomial i j k

@[simp] theorem gfMul_one (a : Codeword) : gfMul a 1#8 = a := by
  induction a using codeword_induction with
  | zero => exact gfMul_zero_left _
  | xor a b iha ihb => rw [gfMul_xor_left, iha, ihb]
  | monomial i => exact gfMul_monomial_one i

end Sys2Proof.Machine

/-! PROOFS. Polynomials over the field by their values, and the divider (R165 to R169). -/
namespace Sys2Proof.Machine

/-! ### The value of a polynomial -/

@[simp] theorem polyEval_singleton (a x : Codeword) : polyEval [a] x = a := by simp [polyEval]

@[simp] theorem polyEval_zero_cons (p : List Codeword) (x : Codeword) : polyEval (0#8 :: p) x = polyEval p x := by
  simp [polyEval]

/-- One step of Horner's rule, on the leading coefficients. -/
theorem polyEval_cons_cons (a b : Codeword) (p : List Codeword) (x : Codeword) :
    polyEval (a :: b :: p) x = polyEval ((gfMul a x ^^^ b) :: p) x := by
  simp [polyEval]

theorem polyEval_append (p q : List Codeword) (x : Codeword) :
    polyEval (p ++ q) x = polyEval (polyEval p x :: q) x := by
  simp [polyEval, List.foldl_append]

theorem polyEval_concat (p : List Codeword) (c x : Codeword) :
    polyEval (p ++ [c]) x = gfMul (polyEval p x) x ^^^ c := by
  rw [polyEval_append, polyEval_cons_cons, polyEval_singleton]

/-- One step of Horner's rule on a sum. -/
theorem horner_xor (a b c d x : Codeword) :
    gfMul (a ^^^ b) x ^^^ gfAdd c d = (gfMul a x ^^^ c) ^^^ (gfMul b x ^^^ d) := by
  rw [gfMul_xor_left, gfAdd_eq_xor]
  ac_rfl

/-- The value of a sum, the leading coefficients apart. -/
theorem polyEval_cons_xor (x : Codeword) : ∀ (p q : List Codeword) (a b : Codeword), p.length = q.length →
    polyEval ((a ^^^ b) :: List.zipWith gfAdd p q) x = polyEval (a :: p) x ^^^ polyEval (b :: q) x
  | [], [], a, b, _ => by simp
  | c :: p, d :: q, a, b, h => by
    rw [List.zipWith_cons_cons, polyEval_cons_cons, horner_xor, polyEval_cons_xor x p q _ _ (by simpa using h),
      ← polyEval_cons_cons, ← polyEval_cons_cons]

/-- The value of a sum of polynomials. -/
theorem polyEval_zipWith_gfAdd {p q : List Codeword} (h : p.length = q.length) (x : Codeword) :
    polyEval (List.zipWith gfAdd p q) x = polyEval p x ^^^ polyEval q x := by
  simpa using polyEval_cons_xor x p q 0#8 0#8 h

/-- The value of a multiple of a polynomial. -/
theorem polyEval_map_gfMul (f x : Codeword) (p : List Codeword) :
    polyEval (p.map (gfMul f)) x = gfMul f (polyEval p x) := by
  induction p using List.reverseRecOn with
  | nil => exact (gfMul_zero_right f).symm
  | append_singleton p c ih =>
    rw [List.map_append, List.map_singleton, polyEval_concat, polyEval_concat, ih, gfMul_assoc, gfMul_xor_right]

/-! ### The generator polynomial (R165) -/

/-- `mulRoot g a` is the product of `g` and `x + a`. -/
theorem polyEval_mulRoot (g : List Codeword) (a x : Codeword) :
    polyEval (mulRoot g a) x = gfMul (x ^^^ a) (polyEval g x) := by
  have hcomm : (fun c => gfMul c a) = gfMul a := funext fun c => gfMul_comm c a
  rw [mulRoot, polyEval_zipWith_gfAdd (by simp), polyEval_concat, hcomm, gfMul_xor_left, gfMul_comm x]
  simp [polyEval_map_gfMul]

theorem polyEval_genPoly_root {n i : Nat} (h : i < n) : polyEval (genPoly n) (gfExp i) = 0#8 := by
  induction n with
  | zero => omega
  | succ n ih =>
    rw [genPoly, polyEval_mulRoot]
    obtain hlt | rfl : i < n ∨ i = n := by omega
    · rw [ih hlt, gfMul_zero_right]
    · rw [BitVec.xor_self, gfMul_zero_left]

theorem genPoly_head? (n : Nat) : (genPoly n).head? = some 1 := by
  induction n with
  | zero => rfl
  | succ n ih =>
    obtain ⟨g, hg⟩ := List.head?_eq_some_iff.1 ih
    simp [genPoly, mulRoot, hg]

theorem genPoly_eq_cons (n : Nat) : ∃ g, g.length = n ∧ genPoly n = 1#8 :: g := by
  obtain ⟨g, hg⟩ := List.head?_eq_some_iff.1 (genPoly_head? n)
  exact ⟨g, by simpa [hg] using genPoly_length n, hg⟩

/-- Settles O28: each factor `x + 2^n` adds one to the degree, keeps the leading coefficient 1 and every earlier
root, and has the root `2^n`. -/
theorem generatorPolynomialRoots : Obligations.GeneratorPolynomialRoots :=
  fun n => ⟨genPoly_length n, genPoly_head? n, fun _ => polyEval_genPoly_root⟩

/-! ### Long division (R167 to R169) -/

/-- Adding a polynomial with value 0 at `x` to the leading coefficients keeps the value at `x`. -/
theorem polyEval_cons_xorInto (x : Codeword) : ∀ (w g : List Codeword) (a b : Codeword), g.length ≤ w.length →
    polyEval (b :: g) x = 0#8 → polyEval ((a ^^^ b) :: xorInto w g) x = polyEval (a :: w) x
  | w, [], a, b, _, hroot => by
    obtain rfl : b = 0#8 := by simpa using hroot
    cases w <;> simp [xorInto]
  | c :: w, d :: g, a, b, h, hroot => by
    rw [polyEval_cons_cons] at hroot
    rw [xorInto, polyEval_cons_cons, horner_xor, polyEval_cons_xorInto x w g _ _ (by simpa using h) hroot,
      ← polyEval_cons_cons]

/-- A monic divisor `x^m + g` taken `f` times from `f :: w` clears the leading coefficient and keeps the value at
every root. -/
theorem polyEval_xorInto_multiple {g w : List Codeword} {x : Codeword} (hlen : g.length ≤ w.length)
    (hroot : polyEval (1#8 :: g) x = 0#8) (f : Codeword) :
    polyEval (xorInto w (g.map (gfMul f))) x = polyEval (f :: w) x := by
  have hmultiple : polyEval (f :: g.map (gfMul f)) x = 0#8 := by
    simpa [hroot] using polyEval_map_gfMul f x (1#8 :: g)
  simpa using polyEval_cons_xorInto x w (g.map (gfMul f)) f f (by simpa using hlen) hmultiple

/-- One division step by a monic divisor (R169). -/
theorem divSteps_succ_cons (g : List Codeword) (k : Nat) (f : Codeword) (w : List Codeword) :
    divSteps (1#8 :: g) (k + 1) (f :: w)
      = divSteps (1#8 :: g) k (if f = 0 then w else xorInto w (g.map (gfMul f))) := by
  rw [divSteps]
  split <;> rfl

/-- Division by a monic divisor keeps the value at every root of the divisor. -/
theorem polyEval_divSteps {g : List Codeword} {x : Codeword} (hroot : polyEval (1#8 :: g) x = 0#8) :
    ∀ (k : Nat) (w : List Codeword), k + g.length ≤ w.length →
      polyEval (divSteps (1#8 :: g) k w) x = polyEval w x
  | 0, _, _ => rfl
  | k + 1, [], h => by simp at h
  | k + 1, f :: w, h => by
    simp only [List.length_cons] at h
    rw [divSteps_succ_cons]
    split
    case isTrue hf =>
      obtain rfl : f = 0#8 := hf
      rw [polyEval_divSteps hroot k w (by omega), polyEval_zero_cons]
    case isFalse =>
      rw [polyEval_divSteps hroot k _ (by simp; omega), polyEval_xorInto_multiple (by omega) hroot]

/-- The remainder is congruent to the data shifted by `n` places: both have the same value at a root (R168). -/
theorem polyEval_rsRemainder {n i : Nat} (h : i < n) (c : List Codeword) :
    polyEval (rsRemainder n c) (gfExp i) = polyEval (c ++ List.replicate n 0#8) (gfExp i) := by
  obtain ⟨g, hlen, hg⟩ := genPoly_eq_cons n
  rw [rsRemainder, hg]
  exact polyEval_divSteps (hg ▸ polyEval_genPoly_root h) _ _ (by simp [hlen])

/-- Data followed by codewords is the data shifted plus these codewords. -/
theorem polyEval_append_eq_xor (c r : List Codeword) (x : Codeword) :
    polyEval (c ++ r) x = polyEval (c ++ List.replicate r.length 0#8) x ^^^ polyEval r x := by
  have hsum : List.zipWith gfAdd (List.replicate r.length 0#8) r = r := by
    induction r with
    | nil => rfl
    | cons a r ih => simpa [List.replicate_succ] using ih
  have h := polyEval_cons_xor x (List.replicate r.length 0#8) r (polyEval c x) 0#8 (by simp)
  rwa [hsum, BitVec.xor_zero, polyEval_zero_cons, ← polyEval_append, ← polyEval_append] at h

/-- Settles O29: at a root, the shifted data and the remainder have the same value, and their sum is the data followed
by the remainder. -/
theorem dataWithRemainderHasEveryRoot : Obligations.DataWithRemainderHasEveryRoot := by
  refine fun n c => ⟨rsRemainder_length n c, fun i hi => ?_⟩
  rw [polyEval_append_eq_xor, rsRemainder_length, polyEval_rsRemainder hi]
  exact BitVec.xor_self

end Sys2Proof.Machine

/-! PROOFS. The commands `RSCLR`, `RSSTEP` and `RSGEN` (R170, R173 to R175, R220). -/
namespace Sys2Proof.Machine

/-- Writing the remainder registers is seen there and nowhere else. -/
theorem setRem_onlyRem (s : State) (r : List Codeword) : OnlyRem s (s.setRem r) := ⟨rfl, payByte_congr rfl rfl⟩

/-- A command that needs an entry and writes `r` to the remainder registers, with no error recorded: with an entry
loaded it writes `r` and changes nothing else, with none it raises `NotConfigured` (R220). -/
theorem command_needsEntry_setRem {s : State} (herr : s.errcode = 0) (r : List Codeword) :
    (s.capvalid = true → command s (if s.capvalid = false then s.raise .notConfigured 0 else s.setRem r)
        = .next (s.setRem r))
    ∧ (s.capvalid = false → ∃ t, command s (if s.capvalid = false then s.raise .notConfigured 0 else s.setRem r)
        = .next t ∧ OnlyError 9 0 s t) := by
  rw [command_clear herr]
  constructor
  · intro hcap
    rw [if_neg (by simp [hcap])]
  · intro hcap
    exact ⟨_, rfl, if_pos hcap ▸ onlyError_raise s .notConfigured 0⟩

/-- Settles O31: with an entry loaded the command writes `ecc` zeros. -/
theorem rsclrClearsTheDivider : Obligations.RsclrClearsTheDivider := by
  intro s herr
  obtain ⟨hloaded, hnone⟩ := command_needsEntry_setRem herr (List.replicate s.capr.ecc.toNat 0)
  refine ⟨fun hcap => ⟨_, hloaded hcap, List.length_replicate, fun i hi => ?_, setRem_onlyRem s _⟩, hnone⟩
  exact List.getElem?_replicate_of_lt (hi.trans_eq List.length_replicate)

/-- Settles O33: with an entry loaded the command writes the remainder, which has `ecc` codewords. -/
theorem rsgenDividesTheCodewordFile : Obligations.RsgenDividesTheCodewordFile := by
  intro s herr
  obtain ⟨hloaded, hnone⟩ := command_needsEntry_setRem herr (rsRemainder s.capr.ecc.toNat s.cw)
  exact ⟨fun hcap => ⟨_, hloaded hcap, rfl, rsRemainder_length _ _, setRem_onlyRem s _⟩, hnone⟩

/-- Each register after a codeword is absorbed, from the old registers (R170). -/
theorem absorb_getElem? {r : List Codeword} {i : Nat} (h : i < r.length) (c : Codeword) :
    (absorb r c)[i]?
      = some (r.getD (i + 1) 0 ^^^ gfMul (c ^^^ r.getD 0 0) ((genPoly r.length).getD (i + 1) 0)) := by
  cases r with
  | nil => simp at h
  | cons r rs =>
    have hshift : (rs ++ [0])[i]? = some ((r :: rs).getD (i + 1) 0) := by
      obtain hlt | rfl : i < rs.length ∨ i = rs.length := by simp at h; omega
      · rw [List.getElem?_append_left hlt]; simp [hlt]
      · simp
    have hcoeff : (genPoly (r :: rs).length).tail[i]? = some ((genPoly (r :: rs).length).getD (i + 1) 0) := by
      have hlen : i + 1 < (genPoly (r :: rs).length).length := by rw [genPoly_length]; omega
      rw [List.getElem?_tail, List.getD_eq_getElem?_getD, List.getElem?_eq_getElem hlen, Option.getD_some]
    rw [absorb, List.getElem?_zipWith, hshift, List.getElem?_map, hcoeff]
    rfl

/-- Settles O32: the command writes the absorbed registers. -/
theorem rsstepAbsorbsTheCodeword : Obligations.RsstepAbsorbsTheCodeword :=
  fun c s herr => ⟨_, command_clear herr _, absorb_length s.rem c, fun _ hi => absorb_getElem? hi c, setRem_onlyRem s _⟩

end Sys2Proof.Machine

/-! PROOFS. The command `ENCODE` (R190 to R194, R223). -/
namespace Sys2Proof.Machine

/-! ### What `Fits` says of the capacity test -/

section
variable {cfg : Config} {m n : Nat}

theorem overCap_of_not_fits (h : ¬ Fits cfg n) : overCap cfg n = true := by
  rwa [← overCap_eq_false_iff, Bool.not_eq_false] at h

theorem Fits.not_overCap (h : Fits cfg n) : ¬ overCap cfg n = true := by
  rwa [Bool.not_eq_true, overCap_eq_false_iff]

theorem Fits.of_le (h : Fits cfg n) (hle : m ≤ n) : Fits cfg m := fun c hc => hle.trans (h c hc)

end

/-! ### The encoder on a payload of digits -/

/-- What the encoder makes of the payload of `s` where it succeeds (R136). -/
def encodedPayload (e : CapEntry) (s : State) : Bits :=
  modeIndicator e ++ bits s.plen.toNat e.ccw.toNat ++ groupCodes s.payload

theorem encodedPayload_length (e : CapEntry) (s : State) :
    (encodedPayload e s).length = encodedLength e s.plen.toNat := by
  rw [encodedPayload, ← payload_length, encoded_length]

theorem numericEncode_payload {e : CapEntry} {s : State} (hcount : s.plen.toNat < 2 ^ e.ccw.toNat)
    (hdigits : AllDigits s) : numericEncode e s.payload = .ok (encodedPayload e s) := by
  rw [encodedPayload]
  rw [← payload_length] at hcount ⊢
  exact numericEncode_of_digits hcount (firstNonDigit_of_allDigits hdigits)

/-! ### Steps 3 to 6, case by case (R194) -/

section
variable {cfg : Config} {e : CapEntry} {p : List Byte}

theorem encodePayload_of_numericEncode_error {f : Failure} (h : numericEncode e p = .error f) :
    encodePayload cfg e p = .error f := by
  rw [encodePayload, h]

variable {data : Bits} (h : numericEncode e p = .ok data)
include h

theorem encodePayload_of_data_overflow (hover : ¬ Fits cfg data.length) :
    encodePayload cfg e p = .error { kind := .bufferOverflow, info := 0 } := by
  simp only [encodePayload, h]
  rw [if_pos (overCap_of_not_fits hover)]

theorem encodePayload_of_data_exceeded (hfits : Fits cfg data.length) (hlong : e.dcb.toNat < data.length) :
    encodePayload cfg e p = .error { kind := .dataCapacityExceeded, info := 0 } := by
  simp only [encodePayload, h]
  rw [if_neg hfits.not_overCap, if_pos hlong]

/-- Data within the capacity is no longer than the padded data, and that no longer than the output: the test of the
output decides all three tests against `BBCAP`. -/
theorem encodePayload_of_le (hlen : data.length ≤ e.dcb.toNat) :
    encodePayload cfg e p = if overCap cfg (e.dcb.toNat + 8 * e.ecc.toNat)
      then .error { kind := .bufferOverflow, info := 0 } else .ok (finishEncode e (padBits e data)) := by
  simp only [encodePayload, h, if_neg (Nat.not_lt.2 hlen)]
  by_cases hfits : Fits cfg (e.dcb.toNat + 8 * e.ecc.toNat)
  · have hpadded : Fits cfg e.dcb.toNat := hfits.of_le (Nat.le_add_right _ _)
    have hdata : Fits cfg data.length := hpadded.of_le hlen
    rw [if_neg hfits.not_overCap, if_neg hpadded.not_overCap, if_neg hdata.not_overCap]
  · simp only [overCap_of_not_fits hfits, if_true, ite_self]

end

/-! ### The command, outcome by outcome (R194) -/

section
variable {s : State} (herr : s.errcode = 0)
include herr

theorem exec_encode_of_unregistered (h : lookup s.cfg s.version s.mode = none) :
    exec .encode s = .next s.lookupFailed := by
  rw [exec, execEncode, command_clear herr, h]

variable {e : CapEntry} (hfound : lookup s.cfg s.version s.mode = some e)
include hfound

theorem exec_encode_of_unsupported (hmode : s.mode ≠ 0) :
    exec .encode s = .next ((s.loadEntry e).raise .unsupportedMode 0) := by
  rw [exec, execEncode, command_clear herr, hfound]
  exact congrArg _ (if_pos hmode)

variable (hmode : s.mode = 0)
include hmode

/-- Numeric mode, a later step fails: the command raises its failure and keeps the entry it loaded. -/
theorem exec_encode_of_failure {f : Failure} (h : encodePayload s.cfg e s.payload = .error f) :
    exec .encode s = .next ((s.loadEntry e).fail f) := by
  rw [exec, execEncode, command_clear herr, hfound]
  simp only [hmode, h, ne_eq, not_true_eq_false, if_false]

/-- Numeric mode, every step passes: the command commits the result. -/
theorem exec_encode_of_encoded {r : Encoded} (h : encodePayload s.cfg e s.payload = .ok r) :
    exec .encode s = .next ((s.loadEntry e).commit r) := by
  rw [exec, execEncode, command_clear herr, hfound]
  simp only [hmode, h, ne_eq, not_true_eq_false, if_false]

end

/-- The commit writes the output to `BB[0]` and to no other buffer (R194). -/
theorem buf_commit (s : State) (r : Encoded) (d : BitVec 2) :
    (s.commit r).buf d = if d = 0 then r.out else s.buf d :=
  State.buf_setBuf s 0 d r.out

/-- Settles O35: the steps pass, and the command commits the padded data and its remainder. -/
theorem encodeWritesTheOutputStream : Obligations.EncodeWritesTheOutputStream := by
  intro s e herr hfound hmode hcount hdigits hlen hfits
  rw [← encodedPayload_length] at hlen
  have hencoded : encodePayload s.cfg e s.payload = .ok (finishEncode e (padBits e (encodedPayload e s))) := by
    rw [encodePayload_of_le (numericEncode_payload hcount hdigits) hlen, if_neg hfits.not_overCap]
  have hpadded : (padBits e (encodedPayload e s)).length = e.dcb.toNat := padBits_length e _ hlen
  refine ⟨_, _, exec_encode_of_encoded herr hfound hmode hencoded, rfl, hpadded, rfl, rfl, ?_, ?_, fun d hd => ?_, rfl,
    payByte_congr rfl rfl⟩
  · rw [buf_commit, if_pos rfl]
    exact appendCodewords_eq_flatMap _ _
  · rw [buf_commit, if_pos rfl, finishEncode, appendCodewords_length, hpadded, rsRemainder_length]
  · rw [buf_commit, if_neg hd]
    rfl

/-- Settles O37: the failing lookup, the missing encoder, the encoder's two failures, and the tests of its result. -/
theorem encodeRaisesTheFirstError : Obligations.EncodeRaisesTheFirstError := by
  intro s herr
  refine ⟨exec_encode_of_unregistered herr, fun e hfound => ⟨exec_encode_of_unsupported herr hfound,
    fun hmode hcount => ?count, fun hmode hcount i hi hbad hleast => ?digit,
    fun hmode hcount hdigits hover => ?dataOverflow, fun hmode hcount hdigits hfits hlong => ?exceeded,
    fun hmode hcount hdigits hlen hover => ?outputOverflow⟩⟩
  case count =>
    rw [← payload_length] at hcount
    exact exec_encode_of_failure herr hfound hmode
      (encodePayload_of_numericEncode_error (numericEncode_of_count hcount))
  case digit =>
    have hfirst := firstNonDigit_of_least hi hbad hleast
    rw [← payload_length] at hcount
    exact exec_encode_of_failure herr hfound hmode
      (encodePayload_of_numericEncode_error (numericEncode_of_nonDigit hcount hfirst))
  case dataOverflow =>
    rw [← encodedPayload_length] at hover
    exact exec_encode_of_failure herr hfound hmode
      (encodePayload_of_data_overflow (numericEncode_payload hcount hdigits) hover)
  case exceeded =>
    rw [← encodedPayload_length] at hfits hlong
    exact exec_encode_of_failure herr hfound hmode
      (encodePayload_of_data_exceeded (numericEncode_payload hcount hdigits) hfits hlong)
  case outputOverflow =>
    rw [← encodedPayload_length] at hlen
    refine exec_encode_of_failure (f := { kind := .bufferOverflow, info := 0 }) herr hfound hmode ?_
    rw [encodePayload_of_le (numericEncode_payload hcount hdigits) hlen, if_pos (overCap_of_not_fits hover)]

/-! ### Two states with the same inputs (R190) -/

theorem payload_congr {s s' : State} (hplen : s'.plen = s.plen)
    (hbytes : ∀ i, i < s.plen.toNat → s'.payByte i = s.payByte i) : s'.payload = s.payload := by
  rw [State.payload, State.payload, hplen]
  exact List.map_congr_left fun i hi => hbytes i (List.mem_range.1 hi)

theorem errCode_ne_zero (e : ErrKind) : errCode e ≠ 0 := by cases e <;> decide

/-- R190 for states that agree on `ERRINFO` too, as all states do that meet R41 (e) and record no error. Lookup, mode
and payload, which the states share, decide the outcome; only a commit leaves no error, and it writes the one result
they share. -/
theorem exec_encode_congr {s s' : State} (herr : s.errcode = 0) (herr' : s'.errcode = 0)
    (hinfo : s'.errinfo = s.errinfo) (hcfg : s'.cfg = s.cfg) (hversion : s'.version = s.version)
    (hmode : s'.mode = s.mode) (hplen : s'.plen = s.plen)
    (hbytes : ∀ i, i < s.plen.toNat → s'.payByte i = s.payByte i) :
    ∃ t t', exec .encode s = .next t ∧ exec .encode s' = .next t' ∧ t'.errcode = t.errcode ∧ t'.errinfo = t.errinfo
      ∧ (t.errcode = 0 → t'.buf 0 = t.buf 0 ∧ t'.cw = t.cw ∧ t'.rem = t.rem) := by
  have hraised (e : ErrKind) {P : Prop} (h : errCode e = 0) : P := absurd h (errCode_ne_zero e)
  have hlookup : lookup s'.cfg s'.version s'.mode = lookup s.cfg s.version s.mode := by rw [hcfg, hversion, hmode]
  cases hfound : lookup s.cfg s.version s.mode with
  | none =>
    exact ⟨_, _, exec_encode_of_unregistered herr hfound, exec_encode_of_unregistered herr' (hlookup.trans hfound),
      rfl, rfl, hraised .unsupportedVersionOrMode⟩
  | some e =>
    have hfound' := hlookup.trans hfound
    by_cases hnumeric : s.mode = 0
    · have hnumeric' := hmode.trans hnumeric
      have hresult : encodePayload s'.cfg e s'.payload = encodePayload s.cfg e s.payload := by
        rw [hcfg, payload_congr hplen hbytes]
      cases hencoded : encodePayload s.cfg e s.payload with
      | error f =>
        exact ⟨_, _, exec_encode_of_failure herr hfound hnumeric hencoded,
          exec_encode_of_failure herr' hfound' hnumeric' (hresult.trans hencoded), rfl, rfl, hraised f.kind⟩
      | ok r =>
        exact ⟨_, _, exec_encode_of_encoded herr hfound hnumeric hencoded,
          exec_encode_of_encoded herr' hfound' hnumeric' (hresult.trans hencoded), herr'.trans herr.symm, hinfo,
          fun _ => ⟨(buf_commit _ r 0).trans (buf_commit _ r 0).symm, rfl, rfl⟩⟩
    · exact ⟨_, _, exec_encode_of_unsupported herr hfound hnumeric,
        exec_encode_of_unsupported herr' hfound' (hmode ▸ hnumeric), rfl, rfl, hraised .unsupportedMode⟩

/-- Key 1 of the reference table selected after reset, with the empty payload, no error recorded, and `info` in
`ERRINFO`. -/
def selectedWithInfo (info : BitVec 16) : State := { State.reset with version := 1, errinfo := info }

/-- `ENCODE` succeeds there, for the data are three count bits, and leaves `ERRINFO` as it was. -/
theorem exec_encode_selectedWithInfo (info : BitVec 16) :
    ∃ t, exec .encode (selectedWithInfo info) = .next t ∧ t.errcode = 0 ∧ t.errinfo = info := by
  have hplen : (selectedWithInfo info).plen.toNat = 0 := rfl
  have hdigits : AllDigits (selectedWithInfo info) := fun i hi => absurd hi (Nat.not_lt_zero i)
  have hfits : Fits (selectedWithInfo info).cfg (20 + 8 * 2) := fun c hc => by cases hc; decide
  obtain ⟨t, -, hexec, -, -, -, -, -, -, -, hframe, -⟩ := encodeWritesTheOutputStream (selectedWithInfo info)
    (zeroFillEntry 11 0 0 3 20 2) rfl rfl rfl (by rw [hplen]; decide) hdigits (by rw [hplen]; decide) hfits
  refine ⟨t, hexec, ?_, ?_⟩ <;> rw [hframe] <;> rfl

/-- Refutes O39: its hypotheses do not speak of `ERRINFO`, which a successful `ENCODE` leaves alone. After reset with
key 1 and the empty payload, the states with 0 and with 1 in `ERRINFO` agree on all that O39 names, and keep their
two values. The second breaks R41 (e); `exec_encode_congr` is what remains true. -/
theorem not_encodeIgnoresTheHistory : ¬ Obligations.EncodeIgnoresTheHistory := by
  intro h
  obtain ⟨t, t', ht, ht', -, hinfo, -⟩ :=
    h (selectedWithInfo 0) (selectedWithInfo 1) rfl rfl rfl rfl rfl rfl fun _ _ => rfl
  obtain ⟨u, hu, -, hzero⟩ := exec_encode_selectedWithInfo 0
  obtain ⟨u', hu', -, hone⟩ := exec_encode_selectedWithInfo 1
  cases ht.symm.trans hu
  cases ht'.symm.trans hu'
  rw [hzero, hone] at hinfo
  exact absurd hinfo (by decide)

end Sys2Proof.Machine

/-! PROOFS. The system commands `NOP`, `CLRERR` and `RESET` (R196 to R198). -/
namespace Sys2Proof.Machine

/-- Settles O40: the command's meaning is the state it is given, with no entry test. -/
theorem nopChangesNothing : Obligations.NopChangesNothing := fun _ => rfl

/-- Clearing an empty record changes nothing (R197). -/
theorem clearErr_of_clear {s : State} (hcode : s.errcode = 0) (hinfo : s.errinfo = 0) : s.clearErr = s := by
  cases s
  cases hcode
  cases hinfo
  rfl

/-- Settles O41: the command writes the record and nothing else, and over an empty record writes what is there. -/
theorem clrerrClearsTheRecord : Obligations.ClrerrClearsTheRecord :=
  fun _ => ⟨⟨_, rfl, rfl, rfl, payByte_congr rfl rfl⟩, fun hcode hinfo => congrArg _ (clearErr_of_clear hcode hinfo)⟩

/-- Settles O42: the command is one write of every register. -/
theorem resetCommandResetsEveryRegister : Obligations.ResetCommandResetsEveryRegister :=
  fun _ => ⟨_, rfl, Bufs.get_empty, rfl, rfl, rfl, rfl, rfl, rfl, rfl, rfl, rfl, rfl, rfl, rfl, rfl, rfl,
    payByte_congr rfl rfl, rfl, rfl, rfl⟩

end Sys2Proof.Machine

/-! PROOFS. The error record (R210 to R227): what a recorded error ignores, and how a command that starts with none
recorded can end. -/
namespace Sys2Proof.Machine

/-! ### While an error is recorded (R222) -/

/-- Every command but `CLRERR` and `RESET` stands behind the entry test, `NOP` having nothing to test. -/
theorem exec_of_recorded {i : Instr} {s : State} (herr : s.errcode ≠ 0) (hclrerr : i ≠ .clrerr)
    (hreset : i ≠ .reset) : exec i s = .next s := by
  cases i with
  | nop => rfl
  | bbappv d w imm =>
    rw [exec, execBbappv]
    split
    · exact command_error herr _
    · exact command_error herr _
  | clrerr => exact absurd rfl hclrerr
  | reset => exact absurd rfl hreset
  | _ => exact command_error herr _

/-- Settles O44: a rejected word is an illegal command, which is ignored; a decoded one is ignored unless it is
`CLRERR` or `RESET`, each of which has one word. -/
theorem recordedErrorIgnoresEveryOtherWord : Obligations.RecordedErrorIgnoresEveryOtherWord := by
  intro s w herr
  refine ⟨fun hclrerr hreset => ?_, runWord_ok (i := .clrerr) (by decide) s,
    _, runWord_ok (i := .reset) (by decide) s, rfl, rfl⟩
  cases hdecode : decode w with
  | error r =>
    rw [runWord_error hdecode]
    exact command_error herr _
  | ok i =>
    have hw : encode i = w := encode_of_decode hdecode
    rw [runWord_ok hdecode]
    refine exec_of_recorded herr (fun hi => hclrerr ?_) (fun hi => hreset ?_)
    · rw [← hw, hi]; decide
    · rw [← hw, hi]; decide

/-! ### The information word (R213, R224) -/

/-- The information word is the one R211 gives the failure: for `InvalidDigit` the least position of a byte of `p` that
is no digit, 0 for every other kind. -/
def InfoFits (p : List Byte) (f : Failure) : Prop :=
  if f.kind = .invalidDigit then firstNonDigit p 0 = some f.info.toNat else f.info = 0

section
variable {p : List Byte} {f : Failure}

theorem infoFits_zero {e : ErrKind} (h : e ≠ .invalidDigit) : InfoFits p { kind := e, info := 0 } := by
  rw [InfoFits, if_neg h]

/-- Code 2 is `InvalidDigit` alone (R211). -/
theorem errCode_eq_two_iff (e : ErrKind) : errCode e = 2 ↔ e = .invalidDigit := by
  cases e <;> decide

theorem InfoFits.eq_zero (h : InfoFits p f) (hcode : errCode f.kind ≠ 2) : f.info = 0 := by
  rwa [InfoFits, if_neg (mt (errCode_eq_two_iff f.kind).2 hcode)] at h

theorem InfoFits.firstNonDigit_eq (h : InfoFits p f) (hcode : errCode f.kind = 2) :
    firstNonDigit p 0 = some f.info.toNat := by
  rwa [InfoFits, if_pos ((errCode_eq_two_iff f.kind).1 hcode)] at h

/-- What the digit test finds: the converse of `firstNonDigit_of_least`. -/
theorem least_of_firstNonDigit {s : State} {i : Nat} (h : firstNonDigit s.payload 0 = some i) :
    i < s.plen.toNat ∧ ((s.payByte i).toNat < 0x30 ∨ 0x39 < (s.payByte i).toNat)
      ∧ ∀ j, j < i → 0x30 ≤ (s.payByte j).toNat ∧ (s.payByte j).toNat ≤ 0x39 := by
  have hfind : s.payload.findIdx? (fun c => !isDigit c) = some i := by
    simpa [firstNonDigit_eq_findIdx?] using h
  obtain ⟨hi, hfound, hleast⟩ := List.findIdx?_eq_some_iff_getElem.1 hfind
  have hbad : ¬ isDigit (s.payByte i) = true := by simpa [State.payload] using hfound
  rw [isDigit_iff] at hbad
  refine ⟨payload_length s ▸ hi, by omega, fun j hj => ?_⟩
  simpa [State.payload, isDigit_iff] using hleast j hj

/-- The encoder's two failures; a position found in a payload of `PLEN` bytes fits the 16 bits of `ERRINFO`. -/
theorem numericEncode_infoFits {e : CapEntry} {s : State} (h : numericEncode e s.payload = .error f) :
    InfoFits s.payload f := by
  unfold numericEncode at h
  split at h
  · cases h; exact infoFits_zero (by decide)
  split at h
  next i hi =>
    cases h
    have hlt : i < 2 ^ 16 := (least_of_firstNonDigit hi).1.trans s.plen.isLt
    rw [InfoFits, if_pos rfl, hi, BitVec.toNat_ofNat, Nat.mod_eq_of_lt hlt]
  next => cases h

/-- Past the encoder every failure of `ENCODE` carries 0. -/
theorem encodePayload_infoFits {cfg : Config} {e : CapEntry} {s : State}
    (h : encodePayload cfg e s.payload = .error f) : InfoFits s.payload f := by
  unfold encodePayload at h
  split at h
  next hnum => cases h; exact numericEncode_infoFits hnum
  next =>
    split_ifs at h
    all_goals
      cases h
      exact infoFits_zero (by decide)

end

/-! ### How a command ends (R224, R225) -/

/-- What a command has written when it raises: the two exceptions of R225, and otherwise nothing. A `LOOKUP` raises
only where it finds no entry. -/
def beforeRaise : Instr → State → State
  | .lookup, s => s.dropEntry
  | .encode, s =>
    match lookup s.cfg s.version s.mode with
    | none => s.dropEntry
    | some e => s.loadEntry e
  | _, s => s

theorem beforeRaise_of_ne {i : Instr} (hlookup : i ≠ .lookup) (hencode : i ≠ .encode) (s : State) :
    beforeRaise i s = s := by
  cases i with
  | lookup => exact absurd rfl hlookup
  | encode => exact absurd rfl hencode
  | _ => rfl

theorem beforeRaise_encode_of_unregistered {s : State} (h : lookup s.cfg s.version s.mode = none) :
    beforeRaise .encode s = s.dropEntry := by
  rw [beforeRaise, h]

theorem beforeRaise_encode_of_registered {s : State} {e : CapEntry} (h : lookup s.cfg s.version s.mode = some e) :
    beforeRaise .encode s = s.loadEntry e := by
  rw [beforeRaise, h]

/-- A command that starts in `s` ends with no error recorded, or by raising a failure in `u`. -/
inductive Ends (s u : State) : State → Prop
  | clear {t : State} (h : t.errcode = 0) : Ends s u t
  | raised {f : Failure} (h : InfoFits s.payload f) : Ends s u (u.fail f)

section
variable {s t : State}

theorem ends_raise {e : ErrKind} (he : e ≠ .invalidDigit) (u : State) : Ends s u (u.raise e 0) :=
  .raised (infoFits_zero he)

variable (herr : s.errcode = 0)
include herr

/-- With no error recorded a command ends as its body does. -/
theorem Ends.of_command {u body : State} (hb : Ends s u body) (h : command s body = .next t) : Ends s u t := by
  rw [command_clear herr] at h
  cases h
  exact hb

theorem ends_illegalCommand (h : illegalCommand s = .next t) : Ends s s t :=
  .of_command herr (ends_raise (by decide) s) h

theorem ends_storeBuf (d : BitVec 2) (x : Bits) : Ends s s (s.storeBuf d x) := by
  by_cases hfits : Fits s.cfg x.length
  · rw [storeBuf_fits hfits]; exact .clear herr
  · rw [storeBuf_over hfits]; exact ends_raise (by decide) s

theorem execBbappv_ends {d : BitVec 2} {w : BitVec 5} {imm : BitVec 16} (h : execBbappv d w imm s = .next t) :
    Ends s s t := by
  unfold execBbappv at h
  split at h
  · exact .of_command herr (ends_storeBuf herr d _) h
  · exact ends_illegalCommand herr h

theorem execLookup_ends (h : execLookup s = .next t) : Ends s s.dropEntry t := by
  refine .of_command herr ?_ h
  split
  next => exact ends_raise (by decide) _
  next => exact .clear herr

theorem execNumenc_ends {d : BitVec 2} (h : execNumenc d s = .next t) : Ends s s t := by
  refine .of_command herr ?_ h
  split_ifs
  · exact ends_raise (by decide) s
  · exact ends_raise (by decide) s
  split
  next hf => exact .raised (numericEncode_infoFits hf)
  next => exact ends_storeBuf herr d _

theorem execPad_ends {d : BitVec 2} (h : execPad d s = .next t) : Ends s s t := by
  refine .of_command herr ?_ h
  split_ifs
  · exact ends_raise (by decide) s
  · exact ends_raise (by decide) s
  · exact ends_raise (by decide) s
  · exact .clear herr

/-- A command that needs an entry and then writes only the remainder registers (R173, R175). -/
theorem needsEntry_ends {r : List Codeword}
    (h : command s (if s.capvalid = false then s.raise .notConfigured 0 else s.setRem r) = .next t) : Ends s s t := by
  refine .of_command herr ?_ h
  split_ifs
  · exact ends_raise (by decide) s
  · exact .clear herr

/-- `ENCODE` raises right after its lookup, or with the entry that the lookup loaded. -/
theorem exec_encode_ends (h : exec .encode s = .next t) : Ends s (beforeRaise .encode s) t := by
  cases hfound : lookup s.cfg s.version s.mode with
  | none =>
    rw [beforeRaise_encode_of_unregistered hfound]
    cases h.symm.trans (exec_encode_of_unregistered herr hfound)
    exact ends_raise (by decide) s.dropEntry
  | some e =>
    rw [beforeRaise_encode_of_registered hfound]
    by_cases hmode : s.mode = 0
    · cases hresult : encodePayload s.cfg e s.payload with
      | error f =>
        cases h.symm.trans (exec_encode_of_failure herr hfound hmode hresult)
        exact .raised (encodePayload_infoFits hresult)
      | ok r =>
        cases h.symm.trans (exec_encode_of_encoded herr hfound hmode hresult)
        exact .clear herr
    · cases h.symm.trans (exec_encode_of_unsupported herr hfound hmode)
      exact ends_raise (by decide) (s.loadEntry e)

/-- Whatever the command, a raise is the last thing it does, and `beforeRaise` is all it does before. -/
theorem exec_ends {i : Instr} (h : exec i s = .next t) : Ends s (beforeRaise i s) t := by
  cases i with
  | nop => cases h; exact .clear herr
  | bbclr d => exact .of_command (body := s.setBuf d []) herr (.clear herr) h
  | bbappv d w imm => exact execBbappv_ends herr h
  | bbcat d src => exact .of_command herr (ends_storeBuf herr d _) h
  | bbtocw src => exact .of_command (body := s.setCw (toCodewords (s.buf src))) herr (.clear herr) h
  | lookup => exact execLookup_ends herr h
  | numenc d => exact execNumenc_ends herr h
  | pad d => exact execPad_ends herr h
  | rsclr => exact needsEntry_ends herr h
  | rsstep c => exact .of_command (body := s.setRem (absorb s.rem c)) herr (.clear herr) h
  | rsgen => exact needsEntry_ends herr h
  | bbappcw d => exact .of_command herr (ends_storeBuf herr d _) h
  | encode => exact exec_encode_ends herr h
  | clrerr => cases h; exact .clear rfl
  | reservedE low => exact ends_illegalCommand herr h
  | reset => cases h; exact .clear rfl

/-- A command that ends with an error recorded has raised it. -/
theorem exec_raised {i : Instr} (h : exec i s = .next t) (hne : t.errcode ≠ 0) :
    ∃ f, InfoFits s.payload f ∧ t = (beforeRaise i s).fail f := by
  cases exec_ends herr h with
  | clear hzero => exact absurd hzero hne
  | raised hinfo => exact ⟨_, hinfo, rfl⟩

end

/-! ### The two statements -/

/-- Settles O45: the command raised after `beforeRaise`, and a raise writes the record and nothing else. -/
theorem raisingCommandChangesOnlyTheRecord : Obligations.RaisingCommandChangesOnlyTheRecord := by
  intro i s t herr hexec hne
  obtain ⟨f, -, rfl⟩ := exec_raised herr hexec hne
  refine ⟨fun hlookup hencode => ?_, fun hi => ?_, fun hi hnone => ?_, fun hi e hfound => ?_⟩
  · rw [beforeRaise_of_ne hlookup hencode]; rfl
  · subst hi; rfl
  · subst hi; rw [beforeRaise_encode_of_unregistered hnone]; rfl
  · subst hi; rw [beforeRaise_encode_of_registered hfound]; rfl

/-- Settles O46: `exec_mayLeave` bounds the code, and `InfoFits` of the failure raised is what R213 says of the
information word. -/
theorem errorCodesRaisedByEachCommand : Obligations.ErrorCodesRaisedByEachCommand := by
  intro i s t hwf herr hexec hne
  have hmem : t.errcode ∈ mayRaise i := by
    obtain hsame | hzero | ⟨hmem, -⟩ := exec_mayLeave hwf hexec
    · exact absurd (hsame.trans herr) hne
    · exact absurd hzero hne
    · exact hmem
  obtain ⟨f, hinfo, rfl⟩ := exec_raised herr hexec hne
  exact ⟨hmem, hinfo.eq_zero, fun h2 => least_of_firstNonDigit (hinfo.firstNonDigit_eq h2)⟩

end Sys2Proof.Machine

/-! PROOFS. The state after reset, and the invariants R41: they hold there, and every step keeps them (R40, R41, R240,
R241). -/
namespace Sys2Proof.Machine

/-! ### Reset (R40, R240, R241) -/

/-- Settles O57: the parameters do not enter a register's reset value. -/
theorem resetStateRegisters : Obligations.ResetStateRegisters := by
  intro s hs
  obtain ⟨cfg, rfl⟩ : ∃ cfg, s = State.resetWith cfg := hs.elim (fun hreset => ⟨referenceConfig, hreset⟩) id
  exact ⟨rfl, rfl, rfl, rfl, rfl, rfl, rfl, Bufs.get_empty, rfl, rfl, rfl, rfl, rfl⟩

/-- Settles O58: the step takes the event off the list and is `hardReset`. -/
theorem hardwareResetStep : Obligations.HardwareResetStep :=
  fun s rest hhost => ⟨(s.setHost rest).hardReset, step_cons hhost, fun _ => rfl, rfl⟩

theorem fits_zero (cfg : Config) : Fits cfg 0 := fun c _ => Nat.zero_le c

theorem inv_resetWith {cfg : Config} (h : configWf cfg = true) : Inv (State.resetWith cfg) where
  params := h
  entry := nofun
  bufs d := by
    have hempty : (State.resetWith cfg).buf d = [] := Bufs.get_empty d
    rw [hempty]
    exact fits_zero cfg
  codewords c _ := Nat.zero_le _
  remainder := Nat.zero_le _
  code := Nat.zero_le _
  info _ := rfl
  entryRange := nofun
  versionRange := Nat.two_pow_pos _
  plenRange := Nat.two_pow_pos _
  payWf := rfl
  payRange := rfl

/-- Settles O59: the reference parameters are in their ranges (R6, R8). -/
theorem resetMeetsTheInvariants : Obligations.ResetMeetsTheInvariants :=
  ⟨inv_resetWith (by decide), fun _ => inv_resetWith⟩

/-! ### What well-formed parameters give (R6, R7) -/

section
variable {cfg : Config} (h : configWf cfg = true)
include h

theorem configWf_widths : cfg.vkeyW ≤ 16 ∧ cfg.payAw ≤ 16 := by
  simp only [configWf, Bool.and_eq_true, decide_eq_true_eq] at h
  omega

/-- A lookup finds entries of the table, and these are in range. -/
theorem entryWf_of_lookup {v : BitVec 16} {m : BitVec 2} {e : CapEntry} (hfound : lookup cfg v m = some e) :
    entryWf e = true := by
  obtain ⟨r, hr, -, -, rfl⟩ := exists_mem_of_lookupRows hfound
  simp only [configWf, tableWf, Bool.and_eq_true, List.all_eq_true] at h
  obtain ⟨-, hrows, -⟩ := h
  exact (hrows r hr).1

end

/-! ### Each operation keeps the invariants -/

/-- The codes of R211 are at most 9. -/
theorem errCode_le_nine (e : ErrKind) : (errCode e).toNat ≤ 9 := by cases e <;> decide

/-- The codewords of a sequence that fits a bit buffer fit the codeword file (R35). -/
theorem cwFits_toCodewords {cfg : Config} {b : Bits} (h : Fits cfg b.length) :
    CwFits cfg (toCodewords b).length := by
  intro c hc
  have hle := h c hc
  rw [toCodewords_length]
  unfold ceilDiv8
  omega

section
variable {s : State} (h : Inv s)
include h

theorem Inv.setBuf {x : Bits} (hx : Fits s.cfg x.length) (d : BitVec 2) : Inv (s.setBuf d x) :=
  { h with
    bufs := fun e => by
      rw [State.buf_setBuf]
      split
      · exact hx
      · exact h.bufs e }

theorem Inv.setCw {c : List Codeword} (hc : CwFits s.cfg c.length) : Inv (s.setCw c) :=
  { h with codewords := hc }

theorem Inv.setRem {r : List Codeword} (hr : r.length ≤ 255) : Inv (s.setRem r) :=
  { h with remainder := hr }

theorem Inv.loadEntry {e : CapEntry} (he : lookup s.cfg s.version s.mode = some e) : Inv (s.loadEntry e) :=
  { h with
    entry := fun _ => he
    entryRange := fun _ => entryWf_of_lookup h.params he }

theorem Inv.dropEntry : Inv s.dropEntry :=
  { h with
    entry := nofun
    entryRange := nofun }

/-- A raise keeps R41 (e) where the kind is `InvalidDigit` or the information word 0 (R211). -/
theorem Inv.raise {e : ErrKind} {info : BitVec 16} (hinfo : errCode e ≠ 2 → info = 0) : Inv (s.raise e info) :=
  { h with
    code := errCode_le_nine e
    info := hinfo }

theorem Inv.fail {p : List Byte} {f : Failure} (hf : InfoFits p f) : Inv (s.fail f) := h.raise hf.eq_zero

theorem Inv.clearErr : Inv s.clearErr :=
  { h with
    code := Nat.zero_le _
    info := fun _ => rfl }

/-- The command `RESET` differs from hardware reset in the payload, the parameters and the host's side alone. -/
theorem Inv.resetCommand : Inv s.resetCommand :=
  { inv_resetWith h.params with
    payWf := h.payWf
    payRange := h.payRange }

theorem Inv.hardReset : Inv s.hardReset :=
  { inv_resetWith h.params with }

theorem Inv.setHost (rest : List Access) : Inv (s.setHost rest) :=
  { h with }

theorem Inv.storeBuf (d : BitVec 2) (x : Bits) : Inv (s.storeBuf d x) := by
  by_cases hx : Fits s.cfg x.length
  · rw [storeBuf_fits hx]; exact h.setBuf hx d
  · rw [storeBuf_over hx]; exact h.raise fun _ => rfl

theorem Inv.lookupFailed : Inv s.lookupFailed := h.dropEntry.raise fun _ => rfl

theorem Inv.commit {r : Encoded} (hout : Fits s.cfg r.out.length) (hcw : CwFits s.cfg r.cw.length)
    (hecc : r.ecc.length ≤ 255) : Inv (s.commit r) :=
  ((h.setBuf hout 0).setCw hcw).setRem hecc

/-! ### Every command keeps the invariants -/

variable {t : State}

/-- The entry test only adds the case that nothing changes. -/
theorem Inv.of_command {body : State} (hb : Inv body) (ht : command s body = .next t) : Inv t := by
  obtain ⟨-, rfl⟩ | ⟨-, rfl⟩ := command_inv ht
  · exact hb
  · exact h

theorem illegalCommand_keeps_inv (ht : illegalCommand s = .next t) : Inv t :=
  h.of_command (h.raise fun _ => rfl) ht

theorem execBbappv_keeps_inv {d : BitVec 2} {w : BitVec 5} {imm : BitVec 16} (ht : execBbappv d w imm s = .next t) :
    Inv t := by
  unfold execBbappv at ht
  split at ht
  · exact h.of_command (h.storeBuf d _) ht
  · exact illegalCommand_keeps_inv h ht

theorem execLookup_keeps_inv (ht : execLookup s = .next t) : Inv t := by
  refine h.of_command ?_ ht
  split
  next => exact h.lookupFailed
  next he => exact h.loadEntry he

theorem execNumenc_keeps_inv {d : BitVec 2} (ht : execNumenc d s = .next t) : Inv t := by
  refine h.of_command ?_ ht
  split_ifs
  · exact h.raise fun _ => rfl
  · exact h.raise fun _ => rfl
  split
  next hf => exact h.fail (numericEncode_infoFits hf)
  next => exact h.storeBuf d _

theorem execPad_keeps_inv {d : BitVec 2} (ht : execPad d s = .next t) : Inv t := by
  refine h.of_command ?_ ht
  split_ifs with _ hlong hover
  · exact h.raise fun _ => rfl
  · exact h.raise fun _ => rfl
  · exact h.raise fun _ => rfl
  · have hfits : Fits s.cfg s.capr.dcb.toNat := (overCap_eq_false_iff _ _).1 (Bool.not_eq_true _ ▸ hover)
    refine h.setBuf ?_ d
    rwa [padBits_length _ _ (Nat.not_lt.1 hlong)]

/-- A command that needs an entry and then writes only the remainder registers (R173, R175). -/
theorem needsEntry_keeps_inv {r : List Codeword} (hr : r.length ≤ 255)
    (ht : command s (if s.capvalid = false then s.raise .notConfigured 0 else s.setRem r) = .next t) : Inv t := by
  refine h.of_command ?_ ht
  split_ifs
  · exact h.raise fun _ => rfl
  · exact h.setRem hr

end

/-- What passes steps 3 to 6 of `ENCODE`: data within the capacity, padded and divided to an output that fits (R194). -/
theorem encodePayload_ok {cfg : Config} {e : CapEntry} {p : List Byte} {r : Encoded}
    (h : encodePayload cfg e p = .ok r) : ∃ data, numericEncode e p = .ok data ∧ data.length ≤ e.dcb.toNat
      ∧ Fits cfg (e.dcb.toNat + 8 * e.ecc.toNat) ∧ r = finishEncode e (padBits e data) := by
  cases hnum : numericEncode e p with
  | error f => cases h.symm.trans (encodePayload_of_numericEncode_error hnum)
  | ok data =>
    by_cases hlen : data.length ≤ e.dcb.toNat
    · rw [encodePayload_of_le hnum hlen] at h
      split_ifs at h with hover
      cases h
      exact ⟨data, rfl, hlen, (overCap_eq_false_iff _ _).1 (Bool.not_eq_true _ ▸ hover), rfl⟩
    · by_cases hfits : Fits cfg data.length
      · cases h.symm.trans (encodePayload_of_data_exceeded hnum hfits (Nat.not_le.1 hlen))
      · cases h.symm.trans (encodePayload_of_data_overflow hnum hfits)

/-- The output of steps 4 to 6 on data within the capacity (R192). -/
theorem finishEncode_out_length {e : CapEntry} {data : Bits} (hlen : data.length ≤ e.dcb.toNat) :
    (finishEncode e (padBits e data)).out.length = e.dcb.toNat + 8 * e.ecc.toNat := by
  rw [finishEncode, appendCodewords_length, rsRemainder_length, padBits_length e data hlen]

section
variable {s t : State} (h : Inv s)
include h

theorem Inv.commit_of_encoded {e : CapEntry} {p : List Byte} {r : Encoded}
    (hr : encodePayload s.cfg e p = .ok r) : Inv (s.commit r) := by
  obtain ⟨data, -, hlen, hfits, rfl⟩ := encodePayload_ok hr
  refine h.commit ?_ (cwFits_toCodewords ?_) ?_
  · rwa [finishEncode_out_length hlen]
  · rw [padBits_length e data hlen]; exact hfits.of_le (Nat.le_add_right _ _)
  · exact (rsRemainder_length _ _).trans_le (Nat.le_of_lt_succ e.ecc.isLt)

/-- `ENCODE` loads the entry first, and after it raises or commits (R194, R225). -/
theorem execEncode_keeps_inv (ht : execEncode s = .next t) : Inv t := by
  refine h.of_command ?_ ht
  split
  next => exact h.lookupFailed
  next e he =>
    have hload : Inv (s.loadEntry e) := h.loadEntry he
    split_ifs
    · exact hload.raise fun _ => rfl
    split
    next hf => exact hload.fail (encodePayload_infoFits hf)
    next hr => exact hload.commit_of_encoded hr

/-- Whatever the command, its operations keep the invariants. -/
theorem exec_keeps_inv {i : Instr} (ht : exec i s = .next t) : Inv t := by
  cases i with
  | nop => cases ht; exact h
  | bbclr d => exact h.of_command (h.setBuf (x := []) (fits_zero s.cfg) d) ht
  | bbappv d w imm => exact execBbappv_keeps_inv h ht
  | bbcat d src => exact h.of_command (h.storeBuf d _) ht
  | bbtocw src => exact h.of_command (h.setCw (cwFits_toCodewords (h.bufs src))) ht
  | lookup => exact execLookup_keeps_inv h ht
  | numenc d => exact execNumenc_keeps_inv h ht
  | pad d => exact execPad_keeps_inv h ht
  | rsclr =>
    exact needsEntry_keeps_inv h (List.length_replicate.trans_le (Nat.le_of_lt_succ s.capr.ecc.isLt)) ht
  | rsstep c => exact h.of_command (h.setRem ((absorb_length s.rem c).trans_le h.remainder)) ht
  | rsgen =>
    exact needsEntry_keeps_inv h ((rsRemainder_length _ s.cw).trans_le (Nat.le_of_lt_succ s.capr.ecc.isLt)) ht
  | bbappcw d => exact h.of_command (h.storeBuf d _) ht
  | encode => exact execEncode_keeps_inv h ht
  | clrerr => cases ht; exact h.clearErr
  | reservedE low => exact illegalCommand_keeps_inv h ht
  | reset => cases ht; exact h.resetCommand

/-! ### Every step keeps the invariants -/

theorem runWord_keeps_inv {w : Word} (ht : runWord w s = .next t) : Inv t := by
  obtain ⟨i, -, -, hexec⟩ | hill := runWord_next ht
  · exact exec_keeps_inv h hexec
  · exact illegalCommand_keeps_inv h hill

/-- A written `VERSION` is cut to its width, and drops the entry that it may no longer select (R30). -/
theorem Inv.writeVersion (v : Word) : Inv (s.writeVersion v) :=
  { h with
    entry := nofun
    entryRange := nofun
    versionRange := by
      rw [State.writeVersion_version, keepLow_toNat (configWf_widths h.params).1]
      exact Nat.mod_lt _ (Nat.two_pow_pos _) }

/-- A written `MODE` drops the entry that it may no longer select (R31). -/
theorem Inv.writeMode (v : Word) : Inv (s.writeMode v) :=
  { h with
    entry := nofun
    entryRange := nofun }

theorem Inv.writePlen (v : Word) : Inv (s.writePlen v) :=
  { h with
    plenRange := by
      rw [State.writePlen_plen, keepLow_toNat (configWf_widths h.params).2]
      exact Nat.mod_lt _ (Nat.two_pow_pos _) }

theorem Inv.writePay {a : Nat} (ha : a < 2 ^ s.cfg.payAw) (v : Byte) : Inv (s.writePay a v) :=
  { h with
    payWf := memWf_memInsert a v s.pay h.payWf
    payRange := memBelow_memInsert _ a v ha s.pay h.payRange }

end

theorem HostEffect.keeps_inv {u t : State} (heff : HostEffect u t) (h : Inv u) : Inv t := by
  cases heff with
  | command w hw => exact runWord_keeps_inv h hw
  | ignored => exact h
  | version v => exact h.writeVersion v
  | mode v => exact h.writeMode v
  | plen v => exact h.writePlen v
  | bbptr v => exact { h with }
  | cwptr v => exact { h with }
  | remptr v => exact { h with }
  | read r => exact { h with }
  | payload a v ha => exact h.writePay ha v
  | hardReset => exact h.hardReset

/-- Settles O60: a step is the effect of one host access, and each effect keeps the invariants. -/
theorem stepKeepsTheInvariants : Obligations.StepKeepsTheInvariants := by
  intro s t h hstep
  obtain ⟨_, rest, -, heff⟩ := step_effect hstep
  exact heff.keeps_inv (h.setHost rest)

/-! ### The code no step records (R134, R217) -/

/-- Settles O47: 6 is not among the codes a step can record. -/
theorem internalInvariantIsNeverRecorded : Obligations.InternalInvariantIsNeverRecorded := by
  intro s t hstep hne h6
  obtain hsame | hzero | ⟨hmem, -⟩ := step_mayLeave hstep
  · exact hne (hsame.symm.trans h6)
  · exact absurd (hzero.symm.trans h6) (by decide)
  · exact absurd (h6 ▸ hmem) (by decide)

end Sys2Proof.Machine

/-! PROOFS. The length of the numeric encoding (R140). -/
namespace Sys2Proof.Machine

/-- The encoder succeeds only past both tests, and then with the one result of R136. -/
theorem numericEncode_ok {e : CapEntry} {p : List Byte} {b : Bits} (h : numericEncode e p = .ok b) :
    p.length < 2 ^ e.ccw.toNat ∧ b = modeIndicator e ++ bits p.length e.ccw.toNat ++ groupCodes p := by
  unfold numericEncode at h
  split at h
  · cases h
  split at h
  · cases h
  · cases h; exact ⟨Nat.not_le.1 ‹_›, rfl⟩

/-- Settles O19: the result is the one `encoded_length` measures. -/
theorem numericEncodeLength : Obligations.NumericEncodeLength := by
  intro e p b h
  obtain ⟨-, rfl⟩ := numericEncode_ok h
  exact encoded_length e p

end Sys2Proof.Machine

/-! PROOFS. The powers of 2 and their logarithms, and what follows of the product: no zero divisors, inverse and
quotient (R162 to R164). -/
namespace Sys2Proof.Machine

/-! ### The antilog table (R163) -/

theorem gfExp_add (i j : Nat) : gfExp (i + j) = gfMul (gfExp i) (gfExp j) := by
  induction j with
  | zero => exact (gfMul_one _).symm
  | succ j ih => rw [← Nat.add_assoc, gfExp, ih, gfMul_assoc, gfExp]

/-! ### The walk along the powers (R163) -/

/-- The walk finds the least power from `EXP[i]` on that is the element. -/
theorem logFrom_eq_some_iff (a : Codeword) (fuel i k : Nat) :
    logFrom a fuel i (gfExp i) = some k
      ↔ i ≤ k ∧ k < i + fuel ∧ gfExp k = a ∧ ∀ j, i ≤ j → j < k → gfExp j ≠ a := by
  induction fuel generalizing i with
  | zero => exact iff_of_false nofun fun ⟨hle, hlt, _⟩ => absurd hle (Nat.not_le.2 hlt)
  | succ fuel ih =>
    rw [logFrom]
    split
    next hfound =>
      refine ⟨fun h => ?_, fun ⟨hle, _, _, hleast⟩ => ?_⟩
      · cases h
        exact ⟨le_rfl, by omega, hfound, fun j hij hji => absurd hij (Nat.not_le.2 hji)⟩
      · exact congrArg some (hle.eq_or_lt.resolve_right fun hlt => hleast i le_rfl hlt hfound)
    next hne =>
      refine (ih (i + 1)).trans ⟨fun ⟨hle, hlt, hk, hleast⟩ => ⟨by omega, by omega, hk, fun j hij hjk => ?_⟩,
        fun ⟨hle, hlt, hk, hleast⟩ => ⟨?_, by omega, hk, fun j hij hjk => hleast j (by omega) hjk⟩⟩
      · obtain rfl | hij := hij.eq_or_lt
        · exact hne
        · exact hleast j hij hjk
      · exact hle.lt_of_ne fun hik => hne (hik ▸ hk)

theorem gfLog_eq_some_iff (a : Codeword) (k : Nat) :
    gfLog a = some k ↔ k < 255 ∧ gfExp k = a ∧ ∀ j, j < k → gfExp j ≠ a := by
  have h := logFrom_eq_some_iff a 255 0 k
  simp only [Nat.zero_le, true_and, true_imp_iff, Nat.zero_add] at h
  exact h

/-! ### The period of the powers (R163) -/

/-- From the first power on, the walk comes to 1 at the 255th. -/
theorem logFrom_one : logFrom 1 255 1 (gfExp 1) = some 255 := by decide +kernel

theorem gfExp_255 : gfExp 255 = 1 := by
  obtain ⟨-, -, hone, -⟩ := (logFrom_eq_some_iff 1 255 1 255).1 logFrom_one
  exact hone

/-- No power before it is 1. -/
theorem gfExp_ne_one {i : Nat} (hpos : 0 < i) (hlt : i < 255) : gfExp i ≠ 1 := by
  obtain ⟨-, -, -, hleast⟩ := (logFrom_eq_some_iff 1 255 1 255).1 logFrom_one
  exact hleast i hpos hlt

theorem gfExp_mod (i : Nat) : gfExp (i % 255) = gfExp i := by
  have hperiod (k : Nat) : gfExp (255 * k + i % 255) = gfExp (i % 255) := by
    induction k with
    | zero => rw [Nat.mul_zero, Nat.zero_add]
    | succ k ih =>
      rw [Nat.mul_succ, Nat.add_right_comm, gfExp_add, ih, gfExp_255]
      exact gfMul_one _
  rw [← hperiod (i / 255), Nat.div_add_mod]

/-! ### The powers are the non-zero elements, each once (R163) -/

/-- A power times the one that completes the period. -/
theorem gfMul_gfExp_complement {i : Nat} (hi : i ≤ 255) : gfMul (gfExp i) (gfExp (255 - i)) = 1 := by
  rw [← gfExp_add, Nat.add_sub_cancel' hi, gfExp_255]

theorem gfExp_ne_zero {i : Nat} (hi : i < 255) : gfExp i ≠ 0 := by
  intro hzero
  have hone := gfMul_gfExp_complement hi.le
  rw [hzero] at hone
  exact absurd ((gfMul_zero_left _).symm.trans hone) (by decide)

/-- Two equal powers differ by a power that is 1. -/
theorem gfExp_injective {i j : Nat} (hi : i < 255) (hj : j < 255) (h : gfExp i = gfExp j) : i = j := by
  wlog hij : i < j generalizing i j
  · exact (Nat.lt_or_eq_of_le (Nat.not_lt.1 hij)).elim (fun hji => (this hj hi h.symm hji).symm) Eq.symm
  have hmod : (255 - i + j) % 255 = j - i := by omega
  refine absurd ?_ (gfExp_ne_one (i := j - i) (by omega) (by omega))
  rw [← hmod, gfExp_mod, gfExp_add, ← h, gfMul_comm, gfMul_gfExp_complement hi.le]

/-- The 255 powers are distinct and not 0, so they are all the 255 elements that are not 0. -/
theorem exists_gfExp_eq {a : Codeword} (ha : a ≠ 0) : ∃ i, i < 255 ∧ gfExp i = a := by
  have hcard : (Finset.univ.erase (0 : Codeword)).card ≤ (Finset.range 255).card := by decide +kernel
  obtain ⟨i, hi, heq⟩ := Finset.surj_on_of_inj_on_of_card_le (fun i _ => gfExp i)
    (fun i hi => Finset.mem_erase.2 ⟨gfExp_ne_zero (Finset.mem_range.1 hi), Finset.mem_univ _⟩)
    (fun i j hi hj => gfExp_injective (Finset.mem_range.1 hi) (Finset.mem_range.1 hj))
    hcard a (Finset.mem_erase.2 ⟨ha, Finset.mem_univ _⟩)
  exact ⟨i, Finset.mem_range.1 hi, heq.symm⟩

/-! ### The log table (R163) -/

theorem gfLog_gfExp {i : Nat} (hi : i < 255) : gfLog (gfExp i) = some i :=
  (gfLog_eq_some_iff _ i).2 ⟨hi, rfl, fun _ hj heq => hj.ne (gfExp_injective (hj.trans hi) hi heq)⟩

theorem gfLog_zero : gfLog 0 = none := by
  refine Option.eq_none_iff_forall_ne_some.2 fun k hk => ?_
  obtain ⟨hlt, hzero, -⟩ := (gfLog_eq_some_iff 0 k).1 hk
  exact gfExp_ne_zero hlt hzero

/-- Settles O26: the powers of 2 are the non-zero elements, each once, and the walk finds each. -/
theorem expAndLogTables : Obligations.ExpAndLogTables := by
  refine ⟨rfl, fun _ => rfl, gfExp_255, fun _ => gfLog_gfExp, fun a ha => ?_, gfLog_zero⟩
  obtain ⟨i, hi, rfl⟩ := exists_gfExp_eq ha
  exact ⟨i, hi, gfLog_gfExp hi, rfl⟩

/-! ### The product and the table forms (R162, R164) -/

/-- Every element but 0 has an inverse. -/
theorem exists_gfMul_eq_one {a : Codeword} (ha : a ≠ 0) : ∃ b, gfMul a b = 1 := by
  obtain ⟨i, hi, rfl⟩ := exists_gfExp_eq ha
  exact ⟨_, gfMul_gfExp_complement hi.le⟩

theorem eq_zero_of_gfMul_eq_zero {a b : Codeword} (h : gfMul a b = 0) : a = 0 ∨ b = 0 := by
  refine or_iff_not_imp_left.2 fun ha => ?_
  obtain ⟨c, hc⟩ := exists_gfMul_eq_one ha
  calc b = gfMul b (gfMul a c) := by rw [hc]; exact (gfMul_one b).symm
    _ = gfMul (gfMul a b) c := by rw [← gfMul_assoc, gfMul_comm b]
    _ = 0 := by rw [h]; exact gfMul_zero_left c

/-- Settles O25: the laws of the product, and the inverse that leaves no zero divisors. -/
theorem fieldProductLaws : Obligations.FieldProductLaws :=
  ⟨gfMul_comm, gfMul_assoc, gfMul_xor_right, fun a => ⟨gfMul_one a, gfMul_zero_right a⟩,
    fun _ _ => eq_zero_of_gfMul_eq_zero⟩

/-- A factor 0 has no logarithm, and two powers multiply by adding theirs. -/
theorem gfMulTable_eq_gfMul (a b : Codeword) : gfMulTable a b = gfMul a b := by
  by_cases ha : a = 0
  · subst ha
    rw [gfMulTable, gfLog_zero]
    exact (gfMul_zero_left b).symm
  by_cases hb : b = 0
  · subst hb
    rw [gfMulTable, gfLog_zero]
    cases gfLog a <;> exact (gfMul_zero_right a).symm
  obtain ⟨i, hi, rfl⟩ := exists_gfExp_eq ha
  obtain ⟨j, hj, rfl⟩ := exists_gfExp_eq hb
  rw [gfMulTable, gfLog_gfExp hi, gfLog_gfExp hj]
  exact (gfExp_mod _).trans (gfExp_add i j)

theorem gfInv_mul_eq_one {a : Codeword} (ha : a ≠ 0) : ∃ b, gfInv a = some b ∧ gfMul a b = 1 := by
  obtain ⟨i, hi, rfl⟩ := exists_gfExp_eq ha
  refine ⟨_, by rw [gfInv, gfLog_gfExp hi], ?_⟩
  rw [gfExp_mod, gfMul_gfExp_complement hi.le]

theorem gfDiv_mul_eq {b : Codeword} (hb : b ≠ 0) (a : Codeword) : ∃ q, gfDiv a b = some q ∧ gfMul q b = a := by
  obtain ⟨j, hj, rfl⟩ := exists_gfExp_eq hb
  by_cases ha : a = 0
  · subst ha
    exact ⟨0, by rw [gfDiv, gfLog_gfExp hj, gfLog_zero], gfMul_zero_left _⟩
  obtain ⟨i, hi, rfl⟩ := exists_gfExp_eq ha
  refine ⟨_, by rw [gfDiv, gfLog_gfExp hj, gfLog_gfExp hi], ?_⟩
  rw [gfExp_mod, ← gfExp_add, Nat.sub_add_cancel (by omega), gfExp_add, gfExp_255]
  exact gfMul_one _

/-- Settles O27: every element but 0 is a power, and 0 has no logarithm. -/
theorem tableFormsAgreeWithTheProduct : Obligations.TableFormsAgreeWithTheProduct :=
  ⟨gfMulTable_eq_gfMul, fun _ => gfInv_mul_eq_one, fun a _ hb => gfDiv_mul_eq hb a,
    by rw [gfInv, gfLog_zero], fun _ => by rw [gfDiv, gfLog_zero]⟩

end Sys2Proof.Machine

/-! PROOFS. Long division and the shift register are one divider (R170), and the laws of the remainder (R172). -/
namespace Sys2Proof.Machine

/-! ### Adding lists of coefficients -/

@[simp] theorem xorInto_nil_right (w : List Codeword) : xorInto w [] = w := by cases w <;> rfl

@[simp] theorem xorInto_replicate_zero (w : List Codeword) (n : Nat) : xorInto w (List.replicate n 0#8) = w := by
  induction w generalizing n with
  | nil => cases n <;> rfl
  | cons a w ih =>
    cases n with
    | zero => rfl
    | succ n => rw [List.replicate_succ, xorInto, ih, gfAdd_eq_xor, BitVec.xor_zero]

theorem xorInto_replicate_zero_left (r : List Codeword) : xorInto (List.replicate r.length 0#8) r = r := by
  induction r with
  | nil => rfl
  | cons a r ih => rw [List.length_cons, List.replicate_succ, xorInto, ih, gfAdd_eq_xor, BitVec.zero_xor]

/-- Adding a list and then a list one longer is adding their sum. -/
theorem xorInto_xorInto : ∀ (w r h : List Codeword), h.length = r.length + 1 →
    xorInto (xorInto w r) h = xorInto w (List.zipWith gfAdd (r ++ [0]) h)
  | w, [], [b], _ => by simp
  | [], _ :: _, _ :: _, _ => rfl
  | a :: w, r :: rs, b :: h, hlen => by
    have ih := xorInto_xorInto w rs h (by simpa using hlen)
    simp only [xorInto, List.cons_append, List.zipWith_cons_cons, ih, gfAdd_eq_xor, BitVec.xor_assoc]

theorem map_gfMul_zero (g : List Codeword) : g.map (gfMul 0#8) = List.replicate g.length 0#8 :=
  List.map_eq_replicate_iff.2 fun b _ => gfMul_zero_left b

/-! ### The two dividers (R169, R170) -/

/-- One division step, whatever the leading coefficient: with 0 it adds the divisor 0 times. -/
theorem divSteps_succ_eq_xorInto (g : List Codeword) (k : Nat) (f : Codeword) (w : List Codeword) :
    divSteps (1#8 :: g) (k + 1) (f :: w) = divSteps (1#8 :: g) k (xorInto w (g.map (gfMul f))) := by
  rw [divSteps_succ_cons]
  split
  next hf =>
    obtain rfl : f = 0#8 := hf
    rw [map_gfMul_zero, xorInto_replicate_zero]
  next => rfl

/-- The registers hold what the divisor multiples taken so far have added to the next `n` coefficients. -/
theorem divSteps_xorInto_eq_foldl_absorb (c r : List Codeword) :
    divSteps (genPoly r.length) c.length (xorInto (c ++ List.replicate r.length 0#8) r) = c.foldl absorb r := by
  induction c generalizing r with
  | nil => exact xorInto_replicate_zero_left r
  | cons x cs ih =>
    obtain ⟨g, hlen, hg⟩ := genPoly_eq_cons r.length
    have hih := ih (absorb r x)
    rw [absorb_length, hg] at hih
    rw [List.foldl_cons, ← hih, hg, List.length_cons]
    cases r with
    | nil =>
      obtain rfl : g = [] := List.length_eq_zero_iff.1 hlen
      rw [xorInto_nil_right, List.cons_append, divSteps_succ_eq_xorInto]
      rfl
    | cons a rs =>
      have habsorb : absorb (a :: rs) x = List.zipWith gfAdd (rs ++ [0]) (g.map (gfMul (gfAdd x a))) := by
        rw [absorb, hg, List.tail_cons]
      rw [List.cons_append, xorInto, divSteps_succ_eq_xorInto, xorInto_xorInto _ _ _ (by simp [hlen]), habsorb]

/-- The remainder is what the shift register holds after every codeword of the data (R170). -/
theorem rsRemainder_eq_foldl_absorb (n : Nat) (c : List Codeword) :
    rsRemainder n c = c.foldl absorb (List.replicate n 0) := by
  have h := divSteps_xorInto_eq_foldl_absorb c (List.replicate n 0#8)
  rwa [xorInto_replicate_zero, List.length_replicate] at h

/-! ### The commands (R173 to R175) -/

/-- `RSSTEP` of every codeword of a list, with no error recorded, absorbs them in order. -/
theorem execAll_rsstep {s : State} (herr : s.errcode = 0) (c : List Codeword) :
    execAll (c.map Instr.rsstep) s = .next (s.setRem (c.foldl absorb s.rem)) := by
  induction c generalizing s with
  | nil => rfl
  | cons x cs ih =>
    have hstep : exec (.rsstep x) s = .next (s.setRem (absorb s.rem x)) := command_clear herr _
    rw [List.map_cons, execAll, hstep]
    exact ih (s := s.setRem (absorb s.rem x)) herr

/-- Settles O34: `RSCLR` starts the shift register at zeros, and the codewords absorbed leave the remainder. -/
theorem rsgenEqualsTheShiftRegister : Obligations.RsgenEqualsTheShiftRegister := by
  intro s herr hcap
  have hclr : exec .rsclr s = .next (s.setRem (List.replicate s.capr.ecc.toNat 0)) :=
    (command_needsEntry_setRem herr _).1 hcap
  have hgen : exec .rsgen s = .next (s.setRem (rsRemainder s.capr.ecc.toNat s.cw)) :=
    (command_needsEntry_setRem herr _).1 hcap
  rw [hgen, execAll, hclr, rsRemainder_eq_foldl_absorb]
  exact (execAll_rsstep (s := s.setRem (List.replicate s.capr.ecc.toNat 0)) herr s.cw).symm

/-! ### Laws of the remainder (R172) -/

/-- Cleared registers stay clear when 0 is absorbed. -/
theorem absorb_replicate_zero (n : Nat) : absorb (List.replicate n 0#8) 0#8 = List.replicate n 0#8 := by
  cases n with
  | zero => rfl
  | succ n =>
    have hshift : List.replicate n 0#8 ++ [0] = List.replicate (n + 1) 0#8 := List.replicate_succ'.symm
    rw [List.replicate_succ, absorb, gfAdd_eq_xor, BitVec.xor_self, map_gfMul_zero, hshift]
    simp [List.replicate_succ]

theorem foldl_absorb_replicate_zero (n k : Nat) :
    (List.replicate k 0#8).foldl absorb (List.replicate n 0#8) = List.replicate n 0#8 := by
  induction k with
  | zero => rfl
  | succ k ih => rw [List.replicate_succ, List.foldl_cons, absorb_replicate_zero, ih]

/-- Adding lists in pairs, the pairs taken either way. -/
theorem zipWith_xor_interchange (p q r s : List Codeword) :
    List.zipWith gfAdd (List.zipWith (· ^^^ ·) p q) (List.zipWith (· ^^^ ·) r s)
      = List.zipWith (· ^^^ ·) (List.zipWith gfAdd p r) (List.zipWith gfAdd q s) := by
  refine List.ext_getElem (by simp only [List.length_zipWith]; omega) fun i _ _ => ?_
  simp only [List.getElem_zipWith, gfAdd_eq_xor]
  ac_rfl

theorem map_gfMul_xor (f f' : Codeword) (g : List Codeword) :
    g.map (gfMul (f ^^^ f')) = List.zipWith (· ^^^ ·) (g.map (gfMul f)) (g.map (gfMul f')) := by
  rw [List.zipWith_map, List.zipWith_self]
  exact List.map_congr_left fun b _ => gfMul_xor_left f f' b

/-- Absorbing is linear in the registers and the codeword together. -/
theorem absorb_xor {r r' : List Codeword} (h : r.length = r'.length) (c c' : Codeword) :
    absorb (List.zipWith (· ^^^ ·) r r') (c ^^^ c') = List.zipWith (· ^^^ ·) (absorb r c) (absorb r' c') := by
  match r, r', h with
  | [], [], _ => rfl
  | a :: rs, a' :: rs', h =>
    have hlen : rs.length = rs'.length := Nat.succ.inj h
    have hregs : List.zipWith (· ^^^ ·) rs rs' ++ [0] = List.zipWith (· ^^^ ·) (rs ++ [0]) (rs' ++ [0]) := by
      rw [List.zipWith_append hlen]
      rfl
    have hfactor : gfAdd (c ^^^ c') (a ^^^ a') = gfAdd c a ^^^ gfAdd c' a' := by
      simp only [gfAdd_eq_xor]
      ac_rfl
    rw [List.zipWith_cons_cons, absorb, absorb, absorb, hregs, hfactor, map_gfMul_xor, zipWith_xor_interchange]
    simp [hlen]

theorem foldl_absorb_xor {c c' : List Codeword} (h : c.length = c'.length) {r r' : List Codeword}
    (hr : r.length = r'.length) : (List.zipWith (· ^^^ ·) c c').foldl absorb (List.zipWith (· ^^^ ·) r r')
      = List.zipWith (· ^^^ ·) (c.foldl absorb r) (c'.foldl absorb r') := by
  induction c generalizing c' r r' with
  | nil =>
    obtain rfl : c' = [] := List.length_eq_zero_iff.1 h.symm
    rfl
  | cons x c ih =>
    obtain ⟨y, c', rfl⟩ := List.exists_cons_of_length_eq_add_one h.symm
    rw [List.zipWith_cons_cons, List.foldl_cons, absorb_xor hr]
    exact ih (Nat.succ.inj h) (by simp [hr])

/-- One register takes the sum of what it holds and what it absorbs: the generator polynomial is `x + 1`. -/
theorem foldl_absorb_singleton (c : List Codeword) (r : Codeword) : c.foldl absorb [r] = [c.foldl (· ^^^ ·) r] := by
  induction c generalizing r with
  | nil => rfl
  | cons x c ih =>
    have habsorb : absorb [r] x = [r ^^^ x] := by
      have hgen : genPoly 1 = [1#8, 1#8] := by decide +kernel
      simp [absorb, hgen, BitVec.xor_comm]
    rw [List.foldl_cons, List.foldl_cons, habsorb, ih]

theorem foldl_absorb_nil (c : List Codeword) : c.foldl absorb [] = [] := by
  induction c with
  | nil => rfl
  | cons x c ih => exact ih

/-- Settles O30: each law is one of the shift register. -/
theorem remainderLaws : Obligations.RemainderLaws := by
  simp only [Obligations.RemainderLaws, rsRemainder_eq_foldl_absorb, List.foldl_append]
  refine ⟨foldl_absorb_replicate_zero, fun n c c' hlen => ?linear, fun n k c => ?leading,
    fun c => foldl_absorb_singleton c 0, foldl_absorb_nil, fun _ => rfl⟩
  case linear =>
    rw [← foldl_absorb_xor hlen rfl, List.zipWith_replicate']
    rfl
  case leading =>
    exact congrArg (List.foldl absorb · c) (foldl_absorb_replicate_zero n k)

end Sys2Proof.Machine

/-! PROOFS. When `ENCODE` succeeds (R193), and the six commands it stands for (R195). -/
namespace Sys2Proof.Machine

/-! ### When the command succeeds (R193) -/

/-- Settles O36: what the steps require of the data is what R193 names, and they fail where it does not hold. -/
theorem encodeSucceedsExactlyWhenThePayloadFits : Obligations.EncodeSucceedsExactlyWhenThePayloadFits := by
  intro s e herr hfound hmode hdigits hfits
  cases hresult : encodePayload s.cfg e s.payload with
  | ok r =>
    obtain ⟨data, hdata, hlen, -, rfl⟩ := encodePayload_ok hresult
    obtain ⟨hcount, rfl⟩ := numericEncode_ok hdata
    have hout := finishEncode_out_length hlen
    rw [encoded_length, payload_length] at hlen
    rw [payload_length] at hcount
    refine ⟨_, exec_encode_of_encoded herr hfound hmode hresult, iff_of_true herr ⟨hcount, hlen⟩, fun _ => ?_⟩
    rw [buf_commit, if_pos rfl, hout]
  | error f =>
    have hraised : ((s.loadEntry e).fail f).errcode ≠ 0 := errCode_ne_zero f.kind
    refine ⟨_, exec_encode_of_failure herr hfound hmode hresult, iff_of_false hraised ?_, (absurd · hraised)⟩
    rintro ⟨hcount, hlen⟩
    rw [← encodedPayload_length] at hlen
    rw [encodePayload_of_le (numericEncode_payload hcount hdigits) hlen, if_neg hfits.not_overCap] at hresult
    cases hresult

/-! ### Runs of commands -/

theorem execAll_cons {i : Instr} {s t : State} (h : exec i s = .next t) (is : List Instr) :
    execAll (i :: is) s = execAll is t := by
  rw [execAll, h]

/-- Once an error is recorded, the commands that follow are ignored (R222). -/
theorem execAll_of_recorded {s : State} (herr : s.errcode ≠ 0) {is : List Instr}
    (hclrerr : Instr.clrerr ∉ is) (hreset : Instr.reset ∉ is) : execAll is s = .next s := by
  induction is with
  | nil => rfl
  | cons i is ih =>
    rw [List.mem_cons, not_or] at hclrerr hreset
    rw [execAll_cons (exec_of_recorded herr (Ne.symm hclrerr.1) (Ne.symm hreset.1))]
    exact ih hclrerr.2 hreset.2

/-! ### The states compared (R195) -/

/-- What R195 says of the state `u` after the six commands and the state `t` after `ENCODE`. -/
def AgreesUpToOutput (t u : State) : Prop :=
  u.errcode = t.errcode ∧ u.errinfo = t.errinfo ∧ (t.errcode = 0 → u = t) ∧ (∀ d, d ≠ 0 → u.buf d = t.buf d)
    ∧ u = { t with bb := u.bb, cw := u.cw, rem := u.rem }

theorem agreesUpToOutput_refl (t : State) : AgreesUpToOutput t t := ⟨rfl, rfl, fun _ => rfl, fun _ _ => rfl, rfl⟩

/-- A failure raised with `BB[0]`, `CW` and `REM` already written. -/
theorem agreesUpToOutput_fail (s : State) (r : Encoded) (f : Failure) :
    AgreesUpToOutput (s.fail f) ((s.commit r).fail f) :=
  ⟨rfl, rfl, fun h => absurd h (errCode_ne_zero f.kind), fun d hd => (buf_commit s r d).trans (if_neg hd), rfl⟩

/-- How steps 3 to 6 of `ENCODE` end: by a raise or by the commit (R194). -/
def State.endEncode (s : State) : Except Failure Encoded → State
  | .error f => s.fail f
  | .ok r => s.commit r

theorem exec_encode_of_registered {s : State} (herr : s.errcode = 0) {e : CapEntry}
    (hfound : lookup s.cfg s.version s.mode = some e) (hmode : s.mode = 0) :
    exec .encode s = .next ((s.loadEntry e).endEncode (encodePayload s.cfg e s.payload)) := by
  cases hresult : encodePayload s.cfg e s.payload with
  | error f => exact exec_encode_of_failure herr hfound hmode hresult
  | ok r => exact exec_encode_of_encoded herr hfound hmode hresult

/-! ### The five commands after the lookup -/

/-- What `BB[0]`, `CW` and `REM` hold before the last command appends the remainder. -/
def beforeAppend (e : CapEntry) (padded : Bits) : Encoded := { finishEncode e padded with out := padded }

/-- A raise ends the run: the commands left are ignored. -/
theorem execAll_of_fail {i : Instr} {s u : State} {f : Failure} (h : exec i s = .next (u.fail f)) {is : List Instr}
    (hclrerr : Instr.clrerr ∉ is) (hreset : Instr.reset ∉ is) : execAll (i :: is) s = .next (u.fail f) :=
  (execAll_cons h is).trans (execAll_of_recorded (errCode_ne_zero f.kind) hclrerr hreset)

section
variable {s : State} (herr : s.errcode = 0) (hcap : s.capvalid = true)
include herr hcap

theorem exec_numenc_of_failure (hmode : s.mode = 0) {f : Failure} (h : numericEncode s.capr s.payload = .error f)
    (d : BitVec 2) : exec (.numenc d) s = .next (s.fail f) := by
  rw [exec, execNumenc, command_clear herr, if_neg (by simp [hcap]), if_neg (by simp [hmode]), h]

theorem exec_numenc_of_data (hmode : s.mode = 0) {data : Bits} (h : numericEncode s.capr s.payload = .ok data)
    (d : BitVec 2) : exec (.numenc d) s = .next (s.storeBuf d data) := by
  rw [exec, execNumenc, command_clear herr, if_neg (by simp [hcap]), if_neg (by simp [hmode]), h]

/-- `PAD` on the data that `NUMENC` has stored. -/
theorem exec_pad_of_data {data : Bits} (hlen : data.length ≤ s.capr.dcb.toNat) :
    exec (.pad 0) (s.setBuf 0 data) = .next ((s.setBuf 0 data).storeBuf 0 (padBits s.capr data)) :=
  (exec_pad_eq_storeBuf (s := s.setBuf 0 data) (d := 0) hcap hlen).trans (command_clear (s := s.setBuf 0 data) herr _)

theorem exec_pad_of_long_data {data : Bits} (hlong : s.capr.dcb.toNat < data.length) :
    exec (.pad 0) (s.setBuf 0 data)
      = .next ((s.setBuf 0 data).fail { kind := .dataCapacityExceeded, info := 0 }) := by
  obtain ⟨t, ht, rfl, -⟩ := pad_raises_dataCapacityExceeded (s := s.setBuf 0 data) (d := 0) herr hcap hlong
  exact ht

/-- The last three commands on padded data: they write the codewords and the remainder, and store the output that
`ENCODE` commits. -/
theorem execAll_divide_append (padded : Bits) :
    execAll [.bbtocw 0, .rsgen, .bbappcw 0] (s.setBuf 0 padded)
      = .next ((s.commit (beforeAppend s.capr padded)).storeBuf 0 (finishEncode s.capr padded).out) := by
  have htocw : exec (.bbtocw 0) (s.setBuf 0 padded) = .next ((s.setBuf 0 padded).setCw (toCodewords padded)) :=
    command_clear (s := s.setBuf 0 padded) herr _
  have hgen : exec .rsgen ((s.setBuf 0 padded).setCw (toCodewords padded))
      = .next (s.commit (beforeAppend s.capr padded)) :=
    (command_needsEntry_setRem (s := (s.setBuf 0 padded).setCw (toCodewords padded)) herr _).1 hcap
  have happend : exec (.bbappcw 0) (s.commit (beforeAppend s.capr padded))
      = .next ((s.commit (beforeAppend s.capr padded)).storeBuf 0 (finishEncode s.capr padded).out) :=
    command_clear (s := s.commit (beforeAppend s.capr padded)) herr _
  rw [execAll_cons htocw, execAll_cons hgen, execAll_cons happend, execAll]

/-- From the padder on: the stages pass, or one of the two tests of a length against `BBCAP` fails. -/
theorem execAll_pad_divide_append {data : Bits} (hdata : numericEncode s.capr s.payload = .ok data)
    (hlen : data.length ≤ s.capr.dcb.toNat) :
    ∃ u, execAll [.pad 0, .bbtocw 0, .rsgen, .bbappcw 0] (s.setBuf 0 data) = .next u
      ∧ AgreesUpToOutput (s.endEncode (encodePayload s.cfg s.capr s.payload)) u := by
  have hpad := exec_pad_of_data herr hcap hlen
  have hpadded : (padBits s.capr data).length = s.capr.dcb.toNat := padBits_length _ data hlen
  have hout := finishEncode_out_length hlen
  rw [encodePayload_of_le hdata hlen]
  by_cases hdcb : Fits s.cfg s.capr.dcb.toNat
  · rw [storeBuf_fits (s := s.setBuf 0 data) (hpadded ▸ hdcb)] at hpad
    rw [execAll_cons hpad]
    refine ⟨_, execAll_divide_append herr hcap _, ?_⟩
    by_cases hfits : Fits s.cfg (s.capr.dcb.toNat + 8 * s.capr.ecc.toNat)
    · rw [if_neg hfits.not_overCap, storeBuf_fits (hout ▸ hfits)]
      exact agreesUpToOutput_refl _
    · rw [if_pos (overCap_of_not_fits hfits), storeBuf_over (hout ▸ hfits)]
      exact agreesUpToOutput_fail s _ _
  · rw [storeBuf_over (s := s.setBuf 0 data) (hpadded ▸ hdcb)] at hpad
    rw [if_pos (overCap_of_not_fits (mt (Fits.of_le · (Nat.le_add_right _ _)) hdcb))]
    exact ⟨_, execAll_of_fail (f := { kind := .bufferOverflow, info := 0 }) hpad (by decide) (by decide),
      agreesUpToOutput_fail s { out := data, cw := s.cw, ecc := s.rem } _⟩

/-- With the entry loaded, in Numeric mode, the five commands end as steps 3 to 6 of `ENCODE` do. -/
theorem execAll_after_lookup (hmode : s.mode = 0) :
    ∃ u, execAll [.numenc 0, .pad 0, .bbtocw 0, .rsgen, .bbappcw 0] s = .next u
      ∧ AgreesUpToOutput (s.endEncode (encodePayload s.cfg s.capr s.payload)) u := by
  cases hnum : numericEncode s.capr s.payload with
  | error f =>
    rw [encodePayload_of_numericEncode_error hnum]
    exact ⟨_, execAll_of_fail (exec_numenc_of_failure herr hcap hmode hnum 0) (by decide) (by decide),
      agreesUpToOutput_refl _⟩
  | ok data =>
    have hnumenc := exec_numenc_of_data herr hcap hmode hnum 0
    by_cases hfits : Fits s.cfg data.length
    · rw [storeBuf_fits hfits] at hnumenc
      rw [execAll_cons hnumenc]
      by_cases hlen : data.length ≤ s.capr.dcb.toNat
      · exact execAll_pad_divide_append herr hcap hnum hlen
      · have hlong := Nat.not_le.1 hlen
        rw [encodePayload_of_data_exceeded hnum hfits hlong]
        exact ⟨_, execAll_of_fail (exec_pad_of_long_data herr hcap hlong) (by decide) (by decide),
          agreesUpToOutput_fail s { out := data, cw := s.cw, ecc := s.rem } _⟩
    · rw [storeBuf_over hfits] at hnumenc
      rw [encodePayload_of_data_overflow hnum hfits]
      exact ⟨_, execAll_of_fail (f := { kind := .bufferOverflow, info := 0 }) hnumenc (by decide) (by decide),
        agreesUpToOutput_refl _⟩

/-- In another mode the first of the five commands raises, and the rest are ignored. -/
theorem execAll_after_lookup_of_unsupported (hmode : s.mode ≠ 0) :
    execAll [.numenc 0, .pad 0, .bbtocw 0, .rsgen, .bbappcw 0] s = .next (s.raise .unsupportedMode 0) := by
  have hnumenc : exec (.numenc 0) s = .next (s.fail { kind := .unsupportedMode, info := 0 }) := by
    rw [exec, execNumenc, command_clear herr, if_neg (by simp [hcap]), if_pos hmode]
    rfl
  exact execAll_of_fail hnumenc (by decide) (by decide)

end

/-- Settles O38: the failing lookup, the missing encoder, and the five commands after the lookup. -/
theorem encodeEqualsTheSixCommands : Obligations.EncodeEqualsTheSixCommands := by
  intro s herr
  cases hfound : lookup s.cfg s.version s.mode with
  | none =>
    have hlookup : exec .lookup s
        = .next (s.dropEntry.fail { kind := .unsupportedVersionOrMode, info := 0 }) :=
      exec_lookup_of_unregistered herr hfound
    exact ⟨_, _, exec_encode_of_unregistered herr hfound, execAll_of_fail hlookup (by decide) (by decide),
      agreesUpToOutput_refl _⟩
  | some e =>
    rw [execAll_cons (exec_lookup_of_registered herr hfound)]
    by_cases hmode : s.mode = 0
    · obtain ⟨u, hu, hagrees⟩ := execAll_after_lookup (s := s.loadEntry e) herr rfl hmode
      exact ⟨_, u, exec_encode_of_registered herr hfound hmode, hu, hagrees⟩
    · exact ⟨_, _, exec_encode_of_unsupported herr hfound hmode,
        execAll_after_lookup_of_unsupported (s := s.loadEntry e) herr rfl hmode, agreesUpToOutput_refl _⟩

end Sys2Proof.Machine
